-- ==== Sys2Proof/Word.lean ====
section
/-! DEFINITION. The widths the spec gives: 64-bit registers (R2, R43, R44), 32-bit instruction words (R82), 4-bit
fields (R21), bytes. Nothing here computes; slicing stands in Sys2Proof/Machine/Bits.lean. -/

namespace Sys2Proof

/-- A 64-bit register value: ID_AA64MMFR0_EL1 (R2), a general register (R43), the program counter (R44). -/
abbrev Word := BitVec 64

/-- One instruction word (R82, R87: every instruction is one 32-bit word). -/
abbrev InstrWord := BitVec 32

/-- A named field of the register (R21: fourteen named 4-bit fields). -/
abbrev Nibble := BitVec 4

/-- The 5-bit register number of an instruction word (R83). -/
abbrev RegNumber := BitVec 5

/-- One byte of an instruction word as stored (used only where a word is printed as bytes, 95_test_vectors.md T6). -/
abbrev Byte := BitVec 8

end Sys2Proof
end

