-- ==== Sys2Proof/Machine/Bits.lean ====
section
/-! DEFINITION. The one arithmetic operation of the spec: the slice `v[hi:lo]` of rule R8. -/

namespace Sys2Proof.Machine

/-- `v[lo+width-1 : lo]` of rule R8: the unsigned `width`-bit value `(v >> lo) mod 2^width`.
Bit 0 is the least significant bit (R8; PRESUMED, log entry 15). -/
def bits (v : Word) (lo width : Nat) : BitVec width := v.extractLsb' lo width

/-- A byte of an instruction word, byte 0 the one at the lowest address (PRESUMED little-endian, log entry 14). -/
def wordByte (w : InstrWord) (k : Nat) : Byte := w.extractLsb' (8 * k) 8

/-- The instruction word whose bytes, lowest address first, are `b0 b1 b2 b3` (95_test_vectors.md T6). -/
def wordOfBytes (b0 b1 b2 b3 : Byte) : InstrWord := b3 ++ b2 ++ b1 ++ b0

end Sys2Proof.Machine
end

