-- ==== Sys2Proof/Syntax.lean ====
section
/-! DEFINITION. The instructions: one constructor per row of spec/opcode_table.json. Every 5-bit register number is
admissible in both (R83, R85), so a term of Instr is well formed by its type. -/

namespace Sys2Proof

/-- The two rows of the opcode table. The operand is the register number `t`, 0 to 31 (R83). -/
inductive Instr where
  /-- `MRS <Xt>, ID_AA64MMFR0_EL1` (R100). -/
  | mrsIdAa64mmfr0El1 (t : RegNumber)
  /-- `MSR ID_AA64MMFR0_EL1, <Xt>`: the write form, Undefined by decision D5 (R106). -/
  | msrIdAa64mmfr0El1 (t : RegNumber)
deriving DecidableEq, Repr

end Sys2Proof
end

