-- ==== Sys2Proof/Decode.lean ====
section
/-! DEFINITION. Decoding an instruction word (R88), the encoder written from the field table of R82, and the host's view
of the decoder (decodeTableWord). The word layout is general knowledge of the spec's writer, not the source's
(93_implementation_defined.md GK1; PRESUMED, log entry 13). -/

namespace Sys2Proof

/-- The five selector fields of a system-register access (R80), with the widths the rule gives. -/
structure Selector where
  op0 : BitVec 2
  op1 : BitVec 3
  crn : BitVec 4
  crm : BitVec 4
  op2 : BitVec 3
deriving DecidableEq, Repr

/-- The selector of ID_AA64MMFR0_EL1 (R80). -/
def selector : Selector := ⟨0b11#2, 0b000#3, 0b0000#4, 0b0111#4, 0b000#3⟩

/-- The A64 system register move word (R82, field by field from bit 31 down): 0b1101010100, L, then op0, op1, CRn, CRm,
op2 and Rt. Bits 20 and 19 are op0; bit 20 is 1 in this format, so the format names a register only when op0 is 0b10 or
0b11. -/
def systemMoveWord (l : BitVec 1) (s : Selector) (t : RegNumber) : InstrWord :=
  0b1101010100#10 ++ l ++ s.op0 ++ s.op1 ++ s.crn ++ s.crm ++ s.op2 ++ t

/-- One row of the opcode table: a word `w` belongs to it when `w AND mask = pattern`. -/
structure OpcodeRow where
  mask : InstrWord
  pattern : InstrWord
deriving DecidableEq, Repr

/-- Row `MRS <Xt>, ID_AA64MMFR0_EL1` (R82, R88). -/
def mrsRow : OpcodeRow := ⟨0xFFFFFFE0#32, 0xD5380700#32⟩

/-- Row `MSR ID_AA64MMFR0_EL1, <Xt>` (R85, R88). -/
def msrRow : OpcodeRow := ⟨0xFFFFFFE0#32, 0xD5180700#32⟩

/-- A word belongs to a row (R88's test). -/
def rowMatches (r : OpcodeRow) (w : InstrWord) : Bool := (w &&& r.mask) == r.pattern

/-- The operand `t = w[4:0]` (R83). -/
def regField (w : InstrWord) : RegNumber := w.extractLsb' 0 5

/-- The decoder's answers (R88): an instruction, or NotThisHardware. -/
inductive Decoded where
  | instr (i : Instr)
  /-- A word outside this hardware (R86, R88; 93_implementation_defined.md U15): refused by name. -/
  | notThisHardware
deriving DecidableEq, Repr

/-- The decoding procedure of rule R88. -/
def decode (w : InstrWord) : Decoded :=
  if rowMatches mrsRow w then .instr (.mrsIdAa64mmfr0El1 (regField w))
  else if rowMatches msrRow w then .instr (.msrIdAa64mmfr0El1 (regField w))
  else .notThisHardware

/-- The word of an instruction, written from the field table of R82 (L = 1 reads, L = 0 writes: R82, R85). -/
def encode : Instr → InstrWord
  | .mrsIdAa64mmfr0El1 t => systemMoveWord 1#1 selector t
  | .msrIdAa64mmfr0El1 t => systemMoveWord 0#1 selector t

/-- The answer of the byte decoder: too few bytes for a word, or the word's decoding with the bytes that follow it. -/
inductive DecodedBytes where
  | tooShort
  | word (d : Decoded) (rest : List Byte)
deriving DecidableEq, Repr

/-- Decoding a byte sequence as 95_test_vectors.md T6 prints it, lowest address first; one length, four bytes (R87).
The byte order is PRESUMED (93_implementation_defined.md GK13; log entry 14); no step of the machine uses it. -/
def decodeBytes : List Byte → DecodedBytes
  | b0 :: b1 :: b2 :: b3 :: rest => .word (decode (Machine.wordOfBytes b0 b1 b2 b3)) rest
  | _ => .tooShort

/-- The bytes of an instruction, lowest address first (95_test_vectors.md T6). -/
def encodeBytes (i : Instr) : List Byte := (List.range 4).map (Machine.wordByte (encode i))

/-- The instruction word that the host describes by `nbits` and `w`: the bits of `w` below `nbits`, zeros above
(log entry 21). -/
def tableWord (nbits w : Nat) : InstrWord := BitVec.ofNat 32 (w % 2 ^ nbits)

/-- The instruction the decoder reads from the word that the host describes, none where it refuses. -/
def decodeTableWord (nbits w : Nat) : Option Instr :=
  match decode (tableWord nbits w) with
  | .instr i => some i
  | .notThisHardware => none

end Sys2Proof
end

