-- ==== Sys2Proof/Config.lean ====
section
/-! DEFINITION. The parameters of the spec (00_scope.md section 4): the configuration record `cfg` of one PE (R5), the
access context `ctx` of one execution (R6), and the program text, which R72 makes a parameter of the step relation.
The free configuration that State.reset uses, `Config.pe`, needs the legality predicate and so stands at the end of
Sys2Proof/WellFormed.lean. -/

namespace Sys2Proof

/-- The configuration record `cfg` of rule R5. Nothing in it changes during a run. -/
structure Cfg where
  /-- `cfg.V`: the value every successful read of the register returns. -/
  V : Word
  /-- `cfg.HaveEL2`: EL2 is implemented. -/
  haveEL2 : Bool
  /-- `cfg.HaveEL3`: EL3 is implemented. -/
  haveEL3 : Bool
  /-- `cfg.FEAT_IDST`: the answer of `IsFeatureImplemented(FEAT_IDST)`. -/
  featIDST : Bool
  /-- `cfg.FEAT_LPA`. -/
  featLPA : Bool
  /-- `cfg.FEAT_LPA2`. -/
  featLPA2 : Bool
  /-- `cfg.ArchAtLeast8_6`: the implementation is of architecture version Armv8.6 or later. -/
  archAtLeast8_6 : Bool
deriving DecidableEq, Repr

/-- The four values of `PSTATE.EL` (R40). -/
inductive ExceptionLevel where
  | el0 | el1 | el2 | el3
deriving DecidableEq, Repr

/-- The level a system access trap is taken to: EL1 or EL2, never another (R11). -/
inductive TrapTarget where
  | el1 | el2
deriving DecidableEq, Repr

/-- A trap target as an exception level. -/
def TrapTarget.level : TrapTarget → ExceptionLevel
  | .el1 => .el1
  | .el2 => .el2

/-- The access context `ctx` of rule R6: the state of the surrounding PE that the access reads and never writes. -/
structure Ctx where
  /-- `PSTATE.EL`, the current exception level (R40). -/
  el : ExceptionLevel
  /-- The answer of `EL2Enabled()` (R42). -/
  el2Enabled : Bool
  /-- `HCR_EL2.TGE`, one bit (R41). -/
  tge : BitVec 1
  /-- `HCR_EL2.TID3`, one bit (R41). -/
  tid3 : BitVec 1
deriving DecidableEq, Repr

/-- The program text of a run (R186: a finite list of instruction words executed in order from the first) and the
address of its first word. A parameter, written by no rule (R72). -/
structure Program where
  /-- The address `A` of the first word (95_test_vectors.md L3). -/
  base : Word
  /-- The instruction words, the one at the lowest address first. -/
  words : List InstrWord
deriving DecidableEq, Repr

end Sys2Proof
end

