-- ==== Sys2Proof/Machine/Access.lean ====
section
/-! DEFINITION. The access decision (R100's pseudocode as the total function of R101). -/

namespace Sys2Proof.Machine

/-- The outcome of the access checks (R11). -/
inductive AccessOutcome where
  /-- `Return(v)`: the read succeeded. -/
  | returned (v : Word)
  /-- `Trap(target, number)`. -/
  | trapped (target : TrapTarget) (number : Nat)
  /-- `Undefined`. -/
  | undefined
deriving DecidableEq, Repr

/-- The number the source passes on every trap (R152). -/
def trapNumber : Nat := 0x18

/-- `Access(cfg, ctx)` (R101): the exception level first, then at EL0 FEAT_IDST, then the EL2 condition (R156). -/
def access (c : Cfg) (x : Ctx) : AccessOutcome :=
  match x.el with
  | .el0 =>
    if c.featIDST then
      if x.el2Enabled && x.tge == 1#1 then .trapped .el2 trapNumber else .trapped .el1 trapNumber
    else .undefined
  | .el1 => if x.el2Enabled && x.tid3 == 1#1 then .trapped .el2 trapNumber else .returned c.V
  | .el2 => .returned c.V
  | .el3 => .returned c.V

end Sys2Proof.Machine
end

