-- ==== Sys2Proof/Machine/Fields.lean ====
section
/-! DEFINITION. The fifteen fields of ID_AA64MMFR0_EL1: where they lie (R21), cutting a value into them (R120) and
assembling a value from them (R122). The bounds are those of the field headings (90_conflicts.md C1). -/

namespace Sys2Proof.Machine.Mmfr0

/-- The fifteen fields of rule R21, most significant first. -/
inductive FieldName where
  | ecv | fgt | res0 | exS | tGran4_2 | tGran64_2 | tGran16_2 | tGran4 | tGran64 | tGran16
  | bigEndEL0 | snsMem | bigEnd | asidBits | paRange
deriving DecidableEq, Repr

/-- The fields in the order of rule R21's table. -/
def allFields : List FieldName :=
  [.ecv, .fgt, .res0, .exS, .tGran4_2, .tGran64_2, .tGran16_2, .tGran4, .tGran64, .tGran16,
   .bigEndEL0, .snsMem, .bigEnd, .asidBits, .paRange]

/-- The lowest bit of a field (R21). -/
def fieldLow : FieldName → Nat
  | .ecv => 60 | .fgt => 56 | .res0 => 48 | .exS => 44 | .tGran4_2 => 40 | .tGran64_2 => 36 | .tGran16_2 => 32
  | .tGran4 => 28 | .tGran64 => 24 | .tGran16 => 20 | .bigEndEL0 => 16 | .snsMem => 12 | .bigEnd => 8
  | .asidBits => 4 | .paRange => 0

/-- The width of a field (R21): 8 bits for the reserved one, 4 for the others. -/
def fieldWidth : FieldName → Nat
  | .res0 => 8
  | .ecv | .fgt | .exS | .tGran4_2 | .tGran64_2 | .tGran16_2 | .tGran4 | .tGran64 | .tGran16
  | .bigEndEL0 | .snsMem | .bigEnd | .asidBits | .paRange => 4

/-- `ECV(v) = v[63:60]` (R120). -/
def ecv (v : Word) : Nibble := bits v 60 4
/-- `FGT(v) = v[59:56]` (R120). -/
def fgt (v : Word) : Nibble := bits v 56 4
/-- `RES0_55_48(v) = v[55:48]` (R120). -/
def res0_55_48 (v : Word) : BitVec 8 := bits v 48 8
/-- `ExS(v) = v[47:44]` (R120). -/
def exS (v : Word) : Nibble := bits v 44 4
/-- `TGran4_2(v) = v[43:40]` (R120). -/
def tGran4_2 (v : Word) : Nibble := bits v 40 4
/-- `TGran64_2(v) = v[39:36]` (R120). -/
def tGran64_2 (v : Word) : Nibble := bits v 36 4
/-- `TGran16_2(v) = v[35:32]` (R120). -/
def tGran16_2 (v : Word) : Nibble := bits v 32 4
/-- `TGran4(v) = v[31:28]` (R120). -/
def tGran4 (v : Word) : Nibble := bits v 28 4
/-- `TGran64(v) = v[27:24]` (R120). -/
def tGran64 (v : Word) : Nibble := bits v 24 4
/-- `TGran16(v) = v[23:20]` (R120). -/
def tGran16 (v : Word) : Nibble := bits v 20 4
/-- `BigEndEL0(v) = v[19:16]` (R120). -/
def bigEndEL0 (v : Word) : Nibble := bits v 16 4
/-- `SNSMem(v) = v[15:12]` (R120). -/
def snsMem (v : Word) : Nibble := bits v 12 4
/-- `BigEnd(v) = v[11:8]` (R120). -/
def bigEnd (v : Word) : Nibble := bits v 8 4
/-- `ASIDBits(v) = v[7:4]` (R120). -/
def asidBits (v : Word) : Nibble := bits v 4 4
/-- `PARange(v) = v[3:0]` (R120). -/
def paRange (v : Word) : Nibble := bits v 0 4

/-- The fifteen field values of a register value, by name. -/
structure Fields where
  ecv : Nibble
  fgt : Nibble
  res0_55_48 : BitVec 8
  exS : Nibble
  tGran4_2 : Nibble
  tGran64_2 : Nibble
  tGran16_2 : Nibble
  tGran4 : Nibble
  tGran64 : Nibble
  tGran16 : Nibble
  bigEndEL0 : Nibble
  snsMem : Nibble
  bigEnd : Nibble
  asidBits : Nibble
  paRange : Nibble
deriving DecidableEq, Repr

/-- All fifteen slices of a value at once (R120). -/
def cut (v : Word) : Fields where
  ecv := ecv v
  fgt := fgt v
  res0_55_48 := res0_55_48 v
  exS := exS v
  tGran4_2 := tGran4_2 v
  tGran64_2 := tGran64_2 v
  tGran16_2 := tGran16_2 v
  tGran4 := tGran4 v
  tGran64 := tGran64 v
  tGran16 := tGran16 v
  bigEndEL0 := bigEndEL0 v
  snsMem := snsMem v
  bigEnd := bigEnd v
  asidBits := asidBits v
  paRange := paRange v

/-- One summand of rule R122: a field value moved to its place. -/
def place {n : Nat} (f : BitVec n) (lo : Nat) : Word := f.setWidth 64 <<< lo

/-- Assembling a value from fifteen field values (R122): the sum of the fields, each at its place. -/
def assemble (f : Fields) : Word :=
  place f.ecv 60 + place f.fgt 56 + place f.res0_55_48 48 + place f.exS 44 + place f.tGran4_2 40
    + place f.tGran64_2 36 + place f.tGran16_2 32 + place f.tGran4 28 + place f.tGran64 24 + place f.tGran16 20
    + place f.bigEndEL0 16 + place f.snsMem 12 + place f.bigEnd 8 + place f.asidBits 4 + place f.paRange 0

end Sys2Proof.Machine.Mmfr0
end

