-- ==== Sys2Proof/Machine/Legality.lean ====
section
/-! DEFINITION. Legal configurations: the nineteen named lines of `WF(cfg)` (R38), the consistency of a context with a
configuration (R6) and the placing of a program (R44). A configuration that fails a line is refused by the line's name
(R38, 92_eei_decisions.md D4). -/

namespace Sys2Proof.Machine

open Mmfr0

/-- The nineteen lines of `WF(cfg)`, under the names rule R38 gives them. -/
inductive WfLine where
  | ecv | ecv86 | fgt | fgt86 | res0 | exS | tGran4_2 | tGran64_2 | tGran16_2 | tGran4 | tGran64 | tGran16
  | bigEndEL0 | bigEndEL0Inv | snsMem | snsMemEL3 | bigEnd | asidBits | paRange
deriving DecidableEq, Repr

/-- The lines in the order of rule R38's table. -/
def allWfLines : List WfLine :=
  [.ecv, .ecv86, .fgt, .fgt86, .res0, .exS, .tGran4_2, .tGran64_2, .tGran16_2, .tGran4, .tGran64, .tGran16,
   .bigEndEL0, .bigEndEL0Inv, .snsMem, .snsMemEL3, .bigEnd, .asidBits, .paRange]

/-- The condition of one line of `WF(cfg)` (R38). Values are compared by equality only (R121). -/
def wfLineHolds (c : Cfg) : WfLine → Bool
  | .ecv => ecv c.V == 0b0000#4 || ecv c.V == 0b0001#4 || ecv c.V == 0b0010#4
  | .ecv86 => !c.archAtLeast8_6 || ecv c.V == 0b0001#4 || ecv c.V == 0b0010#4
  | .fgt => fgt c.V == 0b0000#4 || fgt c.V == 0b0001#4
  | .fgt86 => !c.archAtLeast8_6 || fgt c.V == 0b0001#4
  | .res0 => res0_55_48 c.V == 0b00000000#8
  | .exS => exS c.V == 0b0000#4 || exS c.V == 0b0001#4
  | .tGran4_2 => tGran4_2 c.V == 0b0000#4 || tGran4_2 c.V == 0b0001#4 || tGran4_2 c.V == 0b0010#4
      || (tGran4_2 c.V == 0b0011#4 && c.featLPA2)
  | .tGran64_2 => tGran64_2 c.V == 0b0000#4 || tGran64_2 c.V == 0b0001#4 || tGran64_2 c.V == 0b0010#4
  | .tGran16_2 => tGran16_2 c.V == 0b0000#4 || tGran16_2 c.V == 0b0001#4 || tGran16_2 c.V == 0b0010#4
      || (tGran16_2 c.V == 0b0011#4 && c.featLPA2)
  | .tGran4 => tGran4 c.V == 0b0000#4 || tGran4 c.V == 0b1111#4 || (tGran4 c.V == 0b0001#4 && c.featLPA2)
  | .tGran64 => tGran64 c.V == 0b0000#4 || tGran64 c.V == 0b1111#4
  | .tGran16 => tGran16 c.V == 0b0000#4 || tGran16 c.V == 0b0001#4 || (tGran16 c.V == 0b0010#4 && c.featLPA2)
  | .bigEndEL0 => bigEndEL0 c.V == 0b0000#4 || bigEndEL0 c.V == 0b0001#4
  | .bigEndEL0Inv => bigEnd c.V == 0b0000#4 || bigEndEL0 c.V == 0b0000#4
  | .snsMem => snsMem c.V == 0b0000#4 || snsMem c.V == 0b0001#4
  | .snsMemEL3 => !c.haveEL3 || snsMem c.V != 0b0000#4
  | .bigEnd => bigEnd c.V == 0b0000#4 || bigEnd c.V == 0b0001#4
  | .asidBits => asidBits c.V == 0b0000#4 || asidBits c.V == 0b0010#4
  | .paRange => paRange c.V == 0b0000#4 || paRange c.V == 0b0001#4 || paRange c.V == 0b0010#4
      || paRange c.V == 0b0011#4 || paRange c.V == 0b0100#4 || paRange c.V == 0b0101#4
      || (paRange c.V == 0b0110#4 && c.featLPA)

/-- The lines of `WF(cfg)` that a configuration fails, in the order of rule R38's table. -/
def failingLines (c : Cfg) : List WfLine := allWfLines.filter fun l => !wfLineHolds c l

/-- The three conditions rule R6 puts on a context, named. -/
inductive CtxLine where
  | el2EnabledNeedsEL2 | atEL2NeedsEL2 | atEL3NeedsEL3
deriving DecidableEq, Repr

/-- The conditions in the order of rule R6. -/
def allCtxLines : List CtxLine := [.el2EnabledNeedsEL2, .atEL2NeedsEL2, .atEL3NeedsEL3]

/-- One consistency condition of rule R6 (92_eei_decisions.md D15). -/
def ctxLineHolds (c : Cfg) (x : Ctx) : CtxLine → Bool
  | .el2EnabledNeedsEL2 => !x.el2Enabled || c.haveEL2
  | .atEL2NeedsEL2 => x.el != .el2 || c.haveEL2
  | .atEL3NeedsEL3 => x.el != .el3 || c.haveEL3

/-- The end address `A + 4n` of the text does not wrap (R44; 95_test_vectors.md L3). -/
def programPlaced (p : Program) : Bool := decide (p.base.toNat + 4 * p.words.length < 2 ^ 64)

end Sys2Proof.Machine
end

