-- ==== Sys2Proof/WellFormed.lean ====
section
/-! DEFINITION. Well-formedness of the parameters: `WF(cfg)` (R38), the consistency of `ctx` with `cfg` (R6), the
placing of the program text (R44); and the free legal configuration that State.reset takes (R5). An instruction has no
check: each of its terms is well formed by its type (Sys2Proof/Syntax.lean). -/

namespace Sys2Proof

/-- `WF(cfg)` of rule R38: no line fails. -/
def Cfg.wf (c : Cfg) : Bool := (Machine.failingLines c).isEmpty

/-- A context is consistent with a configuration (R6). -/
def Ctx.wf (c : Cfg) (x : Ctx) : Bool := Machine.allCtxLines.all (Machine.ctxLineHolds c x)

/-- A program is placed so that its end address does not wrap (R44). -/
def Program.wf (p : Program) : Bool := Machine.programPlaced p

/-- A configuration together with its legality. The field defaults are the all-zero value of 95_test_vectors.md T2
row 1, there only so that Lean knows the type to be inhabited; no definition uses them. -/
structure LegalCfg where
  cfg : Cfg := ⟨0#64, false, false, false, false, false, false⟩
  legal : cfg.wf = true := by decide
deriving DecidableEq, Repr, Inhabited

/-- FREE VALUE (R5, 92_eei_decisions.md D1: `cfg` is an open parameter): the configuration of the PE that
State.reset describes. Nothing is known of it but that it is legal (log entry 8). -/
opaque Config.pe : LegalCfg

end Sys2Proof
end

