-- ==== Sys2Proof/Machine/State.lean ====
section
/-! DEFINITION. The state of the machine, its reset, and the reasons a step can stop. The register itself is
`cfg.V`, a constant of the PE (R37); the general registers and the program counter are what an instruction writes
(R43, R44); `ctx` is what the access reads (R6); `arriving` and `text` are inputs of the run (R181, R72). There is no
memory (R61) and no flag (R45). -/

namespace Sys2Proof.Machine

structure State where
  /-- The configuration of the PE (R5); `cfg.V` is ID_AA64MMFR0_EL1. Written by nothing. -/
  cfg : Cfg
  /-- The access context in which the instruction executes (R6). Written by no instruction. -/
  ctx : Ctx
  /-- The model's own field: the contexts that later steps receive as inputs, oldest first (R181, D14; log entry 7). -/
  arriving : List Ctx
  /-- General registers X0 to X30 (R43). -/
  x : Vector Word 31
  /-- The program counter: the address of the executing instruction (R44). -/
  pc : Word
  /-- The program text of the run (R72, R186). Written by nothing. -/
  text : Program
deriving DecidableEq, Repr

/-- The exceptions this hardware raises (R159). Each ends the instruction with no architectural effect of it, and the
run does not continue past it (R104, R157; 92_eei_decisions.md D8). Safe: the model stops where a PE enters a handler
that the spec does not describe. -/
inductive Fault where
  /-- `AArch64.SystemAccessTrap(target, number)` (R152), raised by the MRS read at EL0 and EL1. Safe (log entry 9). -/
  | systemAccessTrap (target : TrapTarget) (number : Nat)
  /-- `UNDEFINED` (R155), raised by the MRS read at EL0 without FEAT_IDST, and by the MSR write form always (R106). Safe
  (log entries 9 and 10). -/
  | undefined
deriving DecidableEq, Repr

/-- Why the model gives no meaning. All are safe: the run is outside the spec (R107). -/
inductive Refusal where
  /-- An instruction without a meaning in the model; raised by no arm. -/
  | notModelled (mnemonic : String)
  /-- `NotThisHardware`: the word at `pc` is neither of the two instructions (R86, R88); raised by `step`. -/
  | notThisHardware (word : InstrWord)
  /-- No instruction word is given at `pc`: the run has ended (R186) or `pc` is not in the text; raised by `step`. -/
  | noInstructionWord
  /-- The program text is placed across the top of the address space (R44); raised by `step` and by `loadProgram`. -/
  | programAcrossTop
  /-- The configuration fails these lines of `WF(cfg)` (R38, D4); raised by `admitConfiguration`. -/
  | illegalConfiguration (lines : List WfLine)
deriving DecidableEq, Repr

/-- The machine of a PE with configuration `c` right after reset (R47, R180). The register has no reset of its own: it
is `c.V`. DESIGN CHOICE (log entries 1, 2, 3, 4): the spec gives no reset value for the context, the registers, `pc`
or the text. EL1 is the lowest level at which the read can execute and exists on every PE (R150). DESIGN CHOICE (log
entry 27): the list of coming contexts is empty, so a run from this very state executes every step in the chosen EL1
context, where R47 and R181 leave the context of every step open; a run that is given contexts (`loadProgram`) does
not. -/
def State.resetWith (c : Cfg) : State where
  cfg := c
  ctx := { el := .el1, el2Enabled := false, tge := 0#1, tid3 := 0#1 }
  arriving := []
  x := Vector.replicate 31 0#64
  pc := 0#64
  text := { base := 0#64, words := [] }

/-- The machine right after reset, of the PE whose configuration the spec leaves open (log entry 8); the choices of
`State.resetWith` are its choices (log entries 1 to 4, 27). -/
def State.reset : State := State.resetWith Config.pe.cfg

end Sys2Proof.Machine
end

