-- ==== Sys2Proof/Machine/Operands.lean ====
section
/-! DEFINITION. The one operand form of the hardware: the register number `t` of `<Xt>` (R83), and the general register it
names (R43). There is no immediate (R84). -/

namespace Sys2Proof.Machine

/-- The general register that `<Xt>` names: number 0 to 30, and none for 31 (R43; PRESUMED, log entry 11). -/
def destination (t : RegNumber) : Option (Fin 31) :=
  if h : t.toNat < 31 then some ⟨t.toNat, h⟩ else none

end Sys2Proof.Machine
end

