-- ==== Sys2Proof/Machine/Ops.lean ====
section
/-! DEFINITION. The operations over the state that the instructions share: reading and writing a general register (R43),
the advance of `pc` (R44), ending an instruction with an exception (R104, R157), and what the step does around an
instruction: receiving the context (R181) and finding the instruction word (R72, R186). -/

namespace Sys2Proof.Machine

/-- `x[n]`: general register number `n` (R9). -/
def State.readX (s : State) (n : Fin 31) : Word := s.x[n]

/-- `if t != 31 then x[t] <- v` (R103): a write to number 31 is discarded (R9, R43). -/
def State.writeX (s : State) (t : RegNumber) (v : Word) : State :=
  match destination t with
  | some n => { s with x := s.x.set n v }
  | none => s

/-- `pc <- pc + 4`, modulo 2^64 (R44, R103; PRESUMED, log entry 12). -/
def State.advancePc (s : State) : State := { s with pc := s.pc + 4#64 }

/-- Taking an exception (R104, R157): the instruction ends with the named fault; no register is written, `pc` is
assigned no value, and the model does not continue. The spec gives no entry sequence beyond that (D8, R4) and no
return (R158), so there is none here; log entry 9. -/
def raiseException (f : Fault) : Host.Outcome State Fault Refusal := .fault f

/-- The input of a step (R181, D14): the next arriving context replaces the old one; with none left the context stays
(log entry 7). -/
def State.takeContext (s : State) : State :=
  match s.arriving with
  | [] => s
  | c :: rest => { s with ctx := c, arriving := rest }

/-- The instruction word of the text at an address (R72, R186): none where no word of the text starts. -/
def fetchWord (p : Program) (pc : Word) : Option InstrWord :=
  let offset := (pc - p.base).toNat
  if offset % 4 = 0 then p.words[offset / 4]? else none

/-- The end address of the text, where `pc` stands when the last word has completed (R186). -/
def endAddress (p : Program) : Word := p.base + BitVec.ofNat 64 (4 * p.words.length)

end Sys2Proof.Machine
end

