-- ==== Sys2Proof/Machine/SystemRegisters.lean ====
section
/-! DEFINITION. The meanings of the two instructions: the read of ID_AA64MMFR0_EL1 (R100, R103, R104) and its write form
(R106). -/

namespace Sys2Proof.Machine

/-- What an access outcome does to the state of a read into `Xt`: success writes `Xt` and advances `pc` (R103); a trap
or UNDEFINED ends the instruction (R104). -/
def completeRead (t : RegNumber) (o : AccessOutcome) (s : State) : Host.Outcome State Fault Refusal :=
  match o with
  | .returned v => .next (s.writeX t v).advancePc
  | .trapped target number => raiseException (.systemAccessTrap target number)
  | .undefined => raiseException .undefined

/-- `MRS <Xt>, ID_AA64MMFR0_EL1` (R100). -/
def execMrsIdAa64mmfr0El1 (t : RegNumber) (s : State) : Host.Outcome State Fault Refusal :=
  completeRead t (access s.cfg s.ctx) s

/-- `MSR ID_AA64MMFR0_EL1, <Xt>` (R106): `Undefined` for every `cfg`, every `ctx` and every `t`; it reads no register
and writes nothing. DESIGN CHOICE of the spec (92_eei_decisions.md D5; log entry 10). -/
def execMsrIdAa64mmfr0El1 (_t : RegNumber) (_s : State) : Host.Outcome State Fault Refusal :=
  raiseException .undefined

end Sys2Proof.Machine
end

