-- ==== Sys2Proof/Machine/Step.lean ====
section
/-! DEFINITION. One step of the machine (R107), and the host's way of giving it an instruction. -/

namespace Sys2Proof.Machine

/-- One step (R107). The step first receives its context (R181); the instruction word is the text's word at `pc` (R186);
a program across the top is refused (R44), so is a step with no word, and a word outside the hardware (R88). -/
def step (s : State) : Host.Outcome State Fault Refusal :=
  if programPlaced s.text then
    match fetchWord s.text s.pc with
    | none => .refused .noInstructionWord
    | some w =>
      match decode w with
      | .instr i => exec i s.takeContext
      | .notThisHardware => .refused (.notThisHardware w)
  else .refused .programAcrossTop

/-- `s` with the one-word program `w` given as its text at `pc`, so that the next step runs it (log entry 21). It leaves
the contexts as they are: given to State.reset, the word runs in the context of log entries 1 and 27. -/
def State.withFetchWord (s : State) (nbits w : Nat) : State :=
  { s with text := { base := s.pc, words := [tableWord nbits w] } }

end Sys2Proof.Machine
end

