-- ==== Sys2Proof/Machine/Load.lean ====
section
/-! DEFINITION. What happens before a run: a configuration is admitted or refused by the names of the lines it fails (R38,
D4), a program is placed or refused (R44), and a reset of a PE (R47, R180). No step does any of this (log entry 4). -/

namespace Sys2Proof.Machine

/-- Admitting a configuration (R38, D4): a legal one gives the machine right after reset, an illegal one is refused with
every line it fails. -/
def admitConfiguration (c : Cfg) : Host.Outcome State Fault Refusal :=
  if c.wf then .next (State.resetWith c) else .refused (.illegalConfiguration (failingLines c))

/-- Placing a program and its run's contexts, `pc` at its first word (R186; 95_test_vectors.md L3); a program across the
top of the address space is refused (R44). -/
def loadProgram (s : State) (p : Program) (first : Ctx) (later : List Ctx) : Host.Outcome State Fault Refusal :=
  if programPlaced p then .next { s with text := p, pc := p.base, ctx := first, arriving := later }
  else .refused .programAcrossTop

/-- Reset of a PE in any state (R47, R180): the configuration, and with it the register, is the same as before. What the
rest of the state holds is the model's choice, the empty list of coming contexts too (log entries 1 to 4, 27). -/
def State.afterReset (s : State) : State := State.resetWith s.cfg

end Sys2Proof.Machine
end

