-- ==== Sys2Proof/Machine/Outline.lean ====
section
/-! DEFINITION. INFORMATIVE, used by no step and by no meaning: what the spec offers, from general knowledge, to a reader
who embeds this model in a model of a whole PE (R41, R42, R155, R157; 95_test_vectors.md T7). PRESUMED, log entry 22. The
spec decides that the model itself stops at the fault (R157, D8). -/

namespace Sys2Proof.Machine

/-- `HCR_EL2.TGE` is bit 27 of HCR_EL2 (R41, GK9). That HCR_EL2 is a word of 64 bits is in no rule and in no GK entry:
PRESUMED from the architecture family (log entry 22). -/
def hcrTGE (hcr : Word) : BitVec 1 := bits hcr 27 1

/-- `HCR_EL2.TID3` is bit 18 of HCR_EL2 (R41, GK9); the 64 bits of HCR_EL2 are PRESUMED (log entry 22). -/
def hcrTID3 (hcr : Word) : BitVec 1 := bits hcr 18 1

/-- `EL2Enabled()` in outline (R42, GK6): EL2 is implemented and enabled in the current Security state. -/
def el2EnabledOutline (c : Cfg) (nonSecure secureEL2Enabled : Bool) : Bool :=
  c.haveEL2 && (!c.haveEL3 || nonSecure || secureEL2Enabled)

/-- The context that the state of a whole PE gives the access (R40, R41, R42); the 64 bits of HCR_EL2 are PRESUMED (log
entry 22). -/
def contextOutline (c : Cfg) (el : ExceptionLevel) (hcr : Word) (nonSecure secureEL2Enabled : Bool) : Ctx where
  el := el
  el2Enabled := el2EnabledOutline c nonSecure secureEL2Enabled
  tge := hcrTGE hcr
  tid3 := hcrTID3 hcr

/-- `ESR_ELx` of a trapped read into `Xt` (R157, GK8), field by field: EC [31:26], IL [25], and the syndrome with a zero
above Op0, Op0 [21:20], Op2 [19:17], Op1 [16:14], CRn [13:10], Rt [9:5], CRm [4:1], Direction [0] (1: read). -/
def esrOutline (t : RegNumber) : BitVec 32 :=
  0x18#6 ++ 1#1 ++ 0#3 ++ 0b11#2 ++ 0b000#3 ++ 0b000#3 ++ 0b0000#4 ++ t ++ 0b0111#4 ++ 1#1

/-- Where an Undefined Instruction exception from EL0 goes (R155, GK7). -/
def undefinedTargetOutline (x : Ctx) : TrapTarget := if x.el2Enabled && x.tge == 1#1 then .el2 else .el1

/-- What the entry to a trap's handler records, in outline (R157): the target level, `ELR_ELx` the address of the
trapped instruction itself, `ESR_ELx`, and of `SPSR_ELx` the interrupted `PSTATE.EL`, the one field of PSTATE the
model holds. The vector is in no source. -/
structure EntryOutline where
  level : ExceptionLevel
  elr : Word
  spsrEL : ExceptionLevel
  esr : BitVec 32
deriving DecidableEq, Repr

/-- The entry that follows a trapped read into `Xt` (R157). -/
def trapEntryOutline (s : State) (t : RegNumber) (target : TrapTarget) : EntryOutline where
  level := target.level
  elr := s.pc
  spsrEL := s.ctx.el
  esr := esrOutline t

end Sys2Proof.Machine
end

