-- ==== Sys2Proof/Machine/Queries.lean ====
section
/-! DEFINITION. Decoding the value, field by field (41_field_queries.md): total functions that answer a named meaning or
`reserved`. A field value is compared by equality only (R121). -/

namespace Sys2Proof.Machine

open Mmfr0

/-! ### What the meanings name: registers, fields and views the source only names (R46). Names, not state. -/

/-- The six fine-grained trap registers (R23, R124). -/
inductive FineGrainedTrapRegister where
  | hafgrtrEL2 | hdfgrtrEL2 | hdfgwtrEL2 | hfgrtrEL2 | hfgitrEL2 | hfgwtrEL2
deriving DecidableEq, Repr

/-- A register, a register field, a counter view or a register's associated traps that ECV or FGT reports (R22, R23,
R46). Which traps a fine-grained trap register has is in no source: `trapsOf r` is "their associated traps" of R23. -/
inductive NamedItem where
  | cnthctlEL2_EL1TVT | cnthctlEL2_EL1TVCT | cnthctlEL2_EL1NVPCT | cnthctlEL2_EL1NVVCT | cnthctlEL2_EVNTIS
  | cnthctlEL2_ECV | cntkctlEL1_EVNTIS | cntpctssEL0_views | cntvctssEL0_views | cntpoffEL2
  | pmscrEL1_PCT | pmscrEL2_PCT | trfcrEL1_TS | trfcrEL2_TS
  | trapRegister (r : FineGrainedTrapRegister) | trapsOf (r : FineGrainedTrapRegister)
  | mdcrEL2_TDCC | mdcrEL3_TDCC | scrEL3_FGTEn
deriving DecidableEq, Repr

/-! ### ECV, FGT, ExS, SNSMem (R123, R124, R125, R130) -/

inductive EcvMeaning where
  | ecvNone | ecvBase | ecvWithOffset | reserved
deriving DecidableEq, Repr

/-- `DecodeECV` (R123). -/
def decodeECV (e : Nibble) : EcvMeaning :=
  if e = 0b0000#4 then .ecvNone
  else if e = 0b0001#4 then .ecvBase
  else if e = 0b0010#4 then .ecvWithOffset
  else .reserved

/-- What ECV 0b0001 supports, in the order of rule R22. -/
def ecvBaseSupports : List NamedItem :=
  [.cnthctlEL2_EL1TVT, .cnthctlEL2_EL1TVCT, .cnthctlEL2_EL1NVPCT, .cnthctlEL2_EL1NVVCT, .cnthctlEL2_EVNTIS,
   .cntkctlEL1_EVNTIS, .cntpctssEL0_views, .cntvctssEL0_views]

/-- What an ECV meaning supports (R22): `ecvWithOffset` as `ecvBase`, and two items more. -/
def ecvSupports : EcvMeaning → List NamedItem
  | .ecvBase => ecvBaseSupports
  | .ecvWithOffset => ecvBaseSupports ++ [.cnthctlEL2_ECV, .cntpoffEL2]
  | .ecvNone | .reserved => []

/-- The fields an ECV meaning extends (R22). -/
def ecvExtends : EcvMeaning → List NamedItem
  | .ecvBase | .ecvWithOffset => [.pmscrEL1_PCT, .pmscrEL2_PCT, .trfcrEL1_TS, .trfcrEL2_TS]
  | .ecvNone | .reserved => []

inductive FgtMeaning where
  | fgtNone | fgtImplemented | reserved
deriving DecidableEq, Repr

/-- `DecodeFGT` (R124). -/
def decodeFGT (f : Nibble) : FgtMeaning :=
  if f = 0b0000#4 then .fgtNone else if f = 0b0001#4 then .fgtImplemented else .reserved

/-- The six fine-grained trap registers, in the order of rule R23. -/
def fineGrainedTrapRegisters : List FineGrainedTrapRegister :=
  [.hafgrtrEL2, .hdfgrtrEL2, .hdfgwtrEL2, .hfgrtrEL2, .hfgitrEL2, .hfgwtrEL2]

/-- What an FGT meaning brings on a PE with or without EL2 and EL3 (R23, R124): with EL2 the six registers "and their
associated traps", and MDCR_EL2.TDCC. -/
def fgtBrings (haveEL2 haveEL3 : Bool) : FgtMeaning → List NamedItem
  | .fgtImplemented =>
    (if haveEL2 then
        fineGrainedTrapRegisters.map .trapRegister ++ fineGrainedTrapRegisters.map .trapsOf ++ [.mdcrEL2_TDCC]
      else [])
      ++ (if haveEL3 then [.mdcrEL3_TDCC] else [])
      ++ (if haveEL2 && haveEL3 then [.scrEL3_FGTEn] else [])
  | .fgtNone | .reserved => []

inductive ExSMeaning where
  | allExceptionEntryExitSynchronizing | nonSynchronizingEntryExitSupported | reserved
deriving DecidableEq, Repr

/-- `DecodeExS` (R125). -/
def decodeExS (x : Nibble) : ExSMeaning :=
  if x = 0b0000#4 then .allExceptionEntryExitSynchronizing
  else if x = 0b0001#4 then .nonSynchronizingEntryExitSupported
  else .reserved

inductive SNSMemMeaning where
  | noSecureNonSecureDistinction | secureNonSecureDistinction | reserved
deriving DecidableEq, Repr

/-- `DecodeSNSMem` (R130). -/
def decodeSNSMem (s : Nibble) : SNSMemMeaning :=
  if s = 0b0000#4 then .noSecureNonSecureDistinction
  else if s = 0b0001#4 then .secureNonSecureDistinction
  else .reserved

/-! ### Features read off the value (R7) -/

/-- `FEAT_ECV` (R7; 92_eei_decisions.md D16, log entry 17). -/
def featECV (v : Word) : Bool := ecv v == 0b0001#4 || ecv v == 0b0010#4

/-- `FEAT_FGT` (R7). -/
def featFGT (v : Word) : Bool := fgt v == 0b0001#4

/-- `FEAT_ExS` (R7). -/
def featExS (v : Word) : Bool := exS v == 0b0001#4

/-! ### Translation granules (R126, R127, R128) -/

/-- The meaning of a granule field without `_2`, and of effective stage-2 support (R126, R128). -/
inductive Gran where
  | notSupported | supported | supported52 | reserved
deriving DecidableEq, Repr

/-- The meaning of a `_2` field (R127). -/
inductive Gran2 where
  | seeStage1Field | notSupported | supported | supported52 | reserved
deriving DecidableEq, Repr

/-- `DecodeTGran4` (R126): zero is supported, 0b1111 is not (90_conflicts.md C3). -/
def decodeTGran4 (g : Nibble) (lpa2 : Bool) : Gran :=
  if g = 0b0000#4 then .supported
  else if g = 0b0001#4 ∧ lpa2 = true then .supported52
  else if g = 0b1111#4 then .notSupported
  else .reserved

/-- `DecodeTGran64` (R126). -/
def decodeTGran64 (g : Nibble) : Gran :=
  if g = 0b0000#4 then .supported else if g = 0b1111#4 then .notSupported else .reserved

/-- `DecodeTGran16` (R126): here zero is not supported. -/
def decodeTGran16 (g : Nibble) (lpa2 : Bool) : Gran :=
  if g = 0b0000#4 then .notSupported
  else if g = 0b0001#4 then .supported
  else if g = 0b0010#4 ∧ lpa2 = true then .supported52
  else .reserved

/-- `DecodeTGran4_2` (R127). -/
def decodeTGran4_2 (g : Nibble) (lpa2 : Bool) : Gran2 :=
  if g = 0b0000#4 then .seeStage1Field
  else if g = 0b0001#4 then .notSupported
  else if g = 0b0010#4 then .supported
  else if g = 0b0011#4 ∧ lpa2 = true then .supported52
  else .reserved

/-- `DecodeTGran64_2` (R127): no 0b0011. -/
def decodeTGran64_2 (g : Nibble) : Gran2 :=
  if g = 0b0000#4 then .seeStage1Field
  else if g = 0b0001#4 then .notSupported
  else if g = 0b0010#4 then .supported
  else .reserved

/-- `DecodeTGran16_2` (R127): the coding of TGran4_2. -/
def decodeTGran16_2 (g : Nibble) (lpa2 : Bool) : Gran2 := decodeTGran4_2 g lpa2

/-- A `_2` meaning, or the stage-1 field's where it says to look there (R128). -/
def followStage1 (m : Gran2) (stage1 : Gran) : Gran :=
  match m with
  | .seeStage1Field => stage1
  | .notSupported => .notSupported
  | .supported => .supported
  | .supported52 => .supported52
  | .reserved => .reserved

/-- `Stage2Gran4` (R128). -/
def stage2Gran4 (v : Word) (lpa2 : Bool) : Gran :=
  followStage1 (decodeTGran4_2 (tGran4_2 v) lpa2) (decodeTGran4 (tGran4 v) lpa2)

/-- `Stage2Gran64` (R128). -/
def stage2Gran64 (v : Word) : Gran := followStage1 (decodeTGran64_2 (tGran64_2 v)) (decodeTGran64 (tGran64 v))

/-- `Stage2Gran16` (R128). -/
def stage2Gran16 (v : Word) (lpa2 : Bool) : Gran :=
  followStage1 (decodeTGran16_2 (tGran16_2 v) lpa2) (decodeTGran16 (tGran16 v) lpa2)

/-! ### Byte order, ASID size, physical address size (R129, R131, R132) -/

inductive Configurability where
  | yes | no | reserved
deriving DecidableEq, Repr

/-- `EEConfigurable` (R129): whether the `SCTLR_ELx.EE` bits can be configured. -/
def eeConfigurable (v : Word) : Configurability :=
  if bigEnd v = 0b0001#4 then .yes else if bigEnd v = 0b0000#4 then .no else .reserved

/-- `E0EConfigurable` (R129): whether `SCTLR_EL1.E0E` can be configured; BigEndEL0 counts only when BigEnd is 0b0000
(90_conflicts.md C5). -/
def e0eConfigurable (v : Word) : Configurability :=
  if bigEnd v = 0b0001#4 then .yes
  else if bigEnd v = 0b0000#4 then
    if bigEndEL0 v = 0b0001#4 then .yes else if bigEndEL0 v = 0b0000#4 then .no else .reserved
  else .reserved

/-- A number of bits, or no meaning. -/
inductive BitCount where
  | bitsOf (n : Nat) | reserved
deriving DecidableEq, Repr

/-- `ASIDSize` (R131). -/
def asidSize (a : Nibble) : BitCount :=
  if a = 0b0000#4 then .bitsOf 8 else if a = 0b0010#4 then .bitsOf 16 else .reserved

/-- `PABits` (R132): by the table, not by a formula (R36). -/
def paBits (p : Nibble) (lpa : Bool) : BitCount :=
  if p = 0b0000#4 then .bitsOf 32
  else if p = 0b0001#4 then .bitsOf 36
  else if p = 0b0010#4 then .bitsOf 40
  else if p = 0b0011#4 then .bitsOf 42
  else if p = 0b0100#4 then .bitsOf 44
  else if p = 0b0101#4 then .bitsOf 48
  else if p = 0b0110#4 ∧ lpa = true then .bitsOf 52
  else .reserved

/-- The size of an address space of so many bits, in bytes (R61, R132); none where the count is reserved. -/
def spaceBytes : BitCount → Option Nat
  | .bitsOf n => some (2 ^ n)
  | .reserved => none

/-! ### What the value tells software (R61, R66, R67, R68, R183) -/

/-- The three granule sizes (R12). -/
inductive Granule where
  | kb4 | kb16 | kb64
deriving DecidableEq, Repr

/-- The two stages a granule can be used at; "stage 1" is only a name for the fields without `_2` (R67). -/
inductive Stage where
  | stage1 | stage2
deriving DecidableEq, Repr

/-- The size of a granule in bytes (R12). -/
def granuleBytes : Granule → Nat
  | .kb4 => 2 ^ 12
  | .kb16 => 2 ^ 14
  | .kb64 => 2 ^ 16

/-- What a configuration reports of a granule at a stage (R66, R67, R128). -/
def granuleReport (c : Cfg) : Stage → Granule → Gran
  | .stage1, .kb4 => decodeTGran4 (tGran4 c.V) c.featLPA2
  | .stage1, .kb16 => decodeTGran16 (tGran16 c.V) c.featLPA2
  | .stage1, .kb64 => decodeTGran64 (tGran64 c.V)
  | .stage2, .kb4 => stage2Gran4 c.V c.featLPA2
  | .stage2, .kb16 => stage2Gran16 c.V c.featLPA2
  | .stage2, .kb64 => stage2Gran64 c.V

/-- A granule is available at a stage when its decode is `Supported` or `Supported52` (R183, R126). -/
def granuleAvailable (c : Cfg) (st : Stage) (g : Granule) : Bool :=
  granuleReport c st g == .supported || granuleReport c st g == .supported52

/-- Physical addresses are at most so many bits wide (R183). -/
def physicalAddressBits (c : Cfg) : BitCount := paBits (paRange c.V) c.featLPA

/-- ASIDs are so many bits wide (R183). -/
def asidWidth (c : Cfg) : BitCount := asidSize (asidBits c.V)

/-- `SCTLR_ELx.EE` may be changed only then (R183). -/
def mayChangeEE (c : Cfg) : Bool := eeConfigurable c.V == .yes

/-- `SCTLR_EL1.E0E` may be changed only then (R183). -/
def mayChangeE0E (c : Cfg) : Bool := e0eConfigurable c.V == .yes

/-- Every answer that the functions of this file give on a configuration (R133): some answer is `Reserved`. -/
def someAnswerReserved (c : Cfg) : Bool :=
  decodeECV (ecv c.V) == .reserved || decodeFGT (fgt c.V) == .reserved || decodeExS (exS c.V) == .reserved
    || decodeTGran4 (tGran4 c.V) c.featLPA2 == .reserved || decodeTGran64 (tGran64 c.V) == .reserved
    || decodeTGran16 (tGran16 c.V) c.featLPA2 == .reserved
    || decodeTGran4_2 (tGran4_2 c.V) c.featLPA2 == .reserved || decodeTGran64_2 (tGran64_2 c.V) == .reserved
    || decodeTGran16_2 (tGran16_2 c.V) c.featLPA2 == .reserved
    || stage2Gran4 c.V c.featLPA2 == .reserved || stage2Gran64 c.V == .reserved
    || stage2Gran16 c.V c.featLPA2 == .reserved
    || eeConfigurable c.V == .reserved || e0eConfigurable c.V == .reserved
    || decodeSNSMem (snsMem c.V) == .reserved || asidSize (asidBits c.V) == .reserved
    || paBits (paRange c.V) c.featLPA == .reserved

end Sys2Proof.Machine
end

