-- ==== Sys2Proof/Safety.lean ====
section
/-! DEFINITION. What counts as a good state and as a completed run, in the terms the statements use. -/

namespace Sys2Proof.Machine

/-- The read may execute in this context (R102 (b)): EL2, EL3, or EL1 with no EL2 software that traps it. -/
def readAllowed (x : Ctx) : Prop :=
  x.el = .el2 ∨ x.el = .el3 ∨ (x.el = .el1 ∧ ¬(x.el2Enabled = true ∧ x.tid3 = 1#1))

/-- `pc` stands at the start of word `k` of the text, or at its end when `k` is the number of words (R186). -/
def atWord (s : State) (k : Nat) : Prop :=
  k ≤ s.text.words.length ∧ s.pc = s.text.base + BitVec.ofNat 64 (4 * k)

/-- The invariant of a run: the configuration is legal (R38), the present and the coming contexts are consistent with
it (R6), the text is placed (R44), and `pc` stands at a word of the text or at its end (R44, R186). -/
structure Inv (s : State) : Prop where
  legal : s.cfg.wf = true
  context : s.ctx.wf s.cfg = true
  arrivals : ∀ c ∈ s.arriving, Ctx.wf s.cfg c = true
  placed : programPlaced s.text = true
  pcInText : ∃ k, atWord s k

/-- A run has completed (R186): the last word has completed, `pc` is at the end of the text. -/
def runCompleted (s : State) : Prop := atWord s s.text.words.length

end Sys2Proof.Machine
end

