-- ==== Sys2Proof/Certificates/Slice0/Obligations.lean ====
section
/-! DEFINITION. The statements for the provers. A field value is written here as the number `slice v hi lo` of rule R8, not
through the model's own extraction functions, so that a field cut at the wrong place makes a statement false. -/

open Sys2Proof Sys2Proof.Machine Sys2Proof.Machine.Mmfr0

/-- `v[hi:lo] = (v >> lo) mod 2^(hi-lo+1)` (R8), as a number. -/
def Sys2Proof.slice (v : Word) (hi lo : Nat) : Nat := v.toNat / 2 ^ lo % 2 ^ (hi - lo + 1)

/-- The state `s` with the PE at the level a trap was taken to (R158). DESIGN CHOICE (log entry 28): only the level
changes; `EL2Enabled()`, `TGE` and `TID3` are what they were at the trap. No source says what a trap entry, or a handler
before its retry, does to them (R157, N8), and `ctx` is a free input of each step (D14). -/
def Sys2Proof.atTarget (s : State) (target : TrapTarget) : State :=
  { s with ctx := { s.ctx with el := target.level } }

/-- The legal values of the register (R38): legal for some choice of the Boolean members of `cfg`. -/
def Sys2Proof.legalForSome (v : Word) : Prop := ∃ c : Cfg, c.V = v ∧ c.wf = true

/-! ### Encoding and decoding -/

/-- The decode column of 95_test_vectors.md T6, word by word. The word layout is general knowledge, not source (GK1,
log entry 13). -/
def Obligations.PrintedWordsDecode : Prop :=
  decode 0xD5380700#32 = .instr (.mrsIdAa64mmfr0El1 0#5) ∧
  decode 0xD5380701#32 = .instr (.mrsIdAa64mmfr0El1 1#5) ∧
  decode 0xD5380709#32 = .instr (.mrsIdAa64mmfr0El1 9#5) ∧
  decode 0xD538071E#32 = .instr (.mrsIdAa64mmfr0El1 30#5) ∧
  decode 0xD538071F#32 = .instr (.mrsIdAa64mmfr0El1 31#5) ∧
  decode 0xD5180700#32 = .instr (.msrIdAa64mmfr0El1 0#5) ∧
  decode 0xD5380720#32 = .notThisHardware ∧
  decode 0xD5380600#32 = .notThisHardware ∧
  decode 0xD5300700#32 = .notThisHardware ∧
  decode 0xD5390700#32 = .notThisHardware ∧
  decode 0xD5381700#32 = .notThisHardware ∧
  decode 0x00000000#32 = .notThisHardware

/-- Decode and encode agree in both directions: a word is read as an instruction exactly when it is that instruction's
word (30_encoding.md sections 2 to 4; GK1, log entry 13). -/
def Obligations.DecodeEncodeAgree : Prop :=
  ∀ (w : InstrWord) (i : Instr), decode w = .instr i ↔ encode i = w

/-- A system-register move word is an instruction of this hardware exactly when its five selector fields are those of
30_encoding.md section 1 (the register's), whatever L and Rt are. Where the fields stand in the word is general
knowledge, not source (GK1, log entry 13). -/
def Obligations.OnlyOneSelectorIsThisHardware : Prop :=
  ∀ (l : BitVec 1) (sel : Selector) (t : RegNumber),
    (∃ i, decode (systemMoveWord l sel t) = .instr i) ↔
      (sel.op0 = 0b11#2 ∧ sel.op1 = 0b000#3 ∧ sel.crn = 0b0000#4 ∧ sel.crm = 0b0111#4 ∧ sel.op2 = 0b000#3)

/-- Every word outside the two ranges 0xD5380700 to 0xD538071F and 0xD5180700 to 0xD518071F is refused, and inside a
range the offset is the register number (30_encoding.md section 4). The numbers rest on the word layout, which is
general knowledge, not source (GK1, log entry 13). -/
def Obligations.DecodeByWordRange : Prop :=
  ∀ w : InstrWord,
    (∀ t : RegNumber, decode w = .instr (.mrsIdAa64mmfr0El1 t) ↔ w.toNat = 0xD5380700 + t.toNat) ∧
    (∀ t : RegNumber, decode w = .instr (.msrIdAa64mmfr0El1 t) ↔ w.toNat = 0xD5180700 + t.toNat) ∧
    (decode w = .notThisHardware ↔
      ¬(0xD5380700 ≤ w.toNat ∧ w.toNat ≤ 0xD538071F) ∧ ¬(0xD5180700 ≤ w.toNat ∧ w.toNat ≤ 0xD518071F))

/-- The bytes of an instruction, lowest address first, decode to it and leave the rest (95_test_vectors.md T6; the byte
order is PRESUMED, log entry 14); fewer than four bytes are no word. -/
def Obligations.ByteDecodingRoundTrip : Prop :=
  (∀ (i : Instr) (rest : List Byte), decodeBytes (encodeBytes i ++ rest) = .word (.instr i) rest) ∧
  (∀ bs : List Byte, decodeBytes bs = .tooShort ↔ bs.length < 4)

/-! ### The read: where it completes, where it traps -/

/-- R153: routing from EL0. -/
def Obligations.ReadAtEL0IsRoutedByTGE : Prop :=
  ∀ (s : State) (t : RegNumber), s.ctx.el = .el0 →
    (s.cfg.featIDST = true → s.ctx.el2Enabled = true ∧ s.ctx.tge = 1#1 →
      exec (.mrsIdAa64mmfr0El1 t) s = .fault (.systemAccessTrap .el2 0x18)) ∧
    (s.cfg.featIDST = true → ¬(s.ctx.el2Enabled = true ∧ s.ctx.tge = 1#1) →
      exec (.mrsIdAa64mmfr0El1 t) s = .fault (.systemAccessTrap .el1 0x18)) ∧
    (s.cfg.featIDST = false → exec (.mrsIdAa64mmfr0El1 t) s = .fault .undefined)

/-- R154: trapping from EL1 to EL2; with TID3 0, or with EL2 not enabled, the read succeeds (its destination holds the
register's value). -/
def Obligations.ReadAtEL1IsTrappedByTID3 : Prop :=
  ∀ (s : State) (t : RegNumber), s.ctx.el = .el1 →
    (s.ctx.el2Enabled = true ∧ s.ctx.tid3 = 1#1 →
      exec (.mrsIdAa64mmfr0El1 t) s = .fault (.systemAccessTrap .el2 0x18)) ∧
    (s.ctx.tid3 = 0#1 ∨ s.ctx.el2Enabled = false →
      ∃ s', exec (.mrsIdAa64mmfr0El1 t) s = .next s' ∧ ∀ n : Fin 31, n.val = t.toNat → s'.readX n = s.cfg.V)

/-- The read completes, and what it leaves unchanged (40_mrs_read.md section 3): where it is allowed it answers a next
state in which `Xt` holds the register's value (nothing written for number 31: D6, log entry 11), `pc` is 4 further
(D7, log entry 12), and every other general register, the configuration, the context, the coming contexts and the text
are as before. -/
def Obligations.ReadCompletesAndItsFrame : Prop :=
  ∀ (s : State) (t : RegNumber), readAllowed s.ctx →
    ∃ s', exec (.mrsIdAa64mmfr0El1 t) s = .next s' ∧
      (∀ n : Fin 31, s'.readX n = if n.val = t.toNat then s.cfg.V else s.readX n) ∧
      s'.pc = s.pc + 4#64 ∧
      s'.cfg = s.cfg ∧ s'.ctx = s.ctx ∧ s'.arriving = s.arriving ∧ s'.text = s.text

/-- A read into number 31 changes no general register; only `pc` moves (D6, log entry 11). -/
def Obligations.ReadIntoNumber31WritesNothing : Prop :=
  ∀ s : State, readAllowed s.ctx →
    exec (.mrsIdAa64mmfr0El1 31#5) s = .next { s with pc := s.pc + 4#64 }

/-- The read completes only where it is allowed: EL2, EL3, or EL1 without the TID3 trap; in particular never at EL0
(40_mrs_read.md section 2, (b); 60_exceptions.md section 1). -/
def Obligations.ReadCompletesExactlyWhenAllowed : Prop :=
  ∀ (s : State) (t : RegNumber),
    (∃ s', exec (.mrsIdAa64mmfr0El1 t) s = .next s') ↔
      (s.ctx.el = .el2 ∨ s.ctx.el = .el3 ∨
        (s.ctx.el = .el1 ∧ (s.ctx.el2Enabled = false ∨ s.ctx.tid3 = 0#1)))

/-- R106: the write form is Undefined in every state and for every operand. The rule is the spec's decision D5, not the
source's (log entry 10). -/
def Obligations.WriteFormIsUndefined : Prop :=
  ∀ (s : State) (t : RegNumber), exec (.msrIdAa64mmfr0El1 t) s = .fault .undefined

/-- The table of every exception this hardware raises (60_exceptions.md section 2), as an equivalence: these are the
exceptions, and each is raised exactly under its condition. The last row is decision D5 (log entry 10). -/
def Obligations.ExceptionsAreExactlyTheTable : Prop :=
  ∀ (i : Instr) (s : State) (f : Fault), exec i s = .fault f ↔
    ((∃ t, i = .mrsIdAa64mmfr0El1 t) ∧
      ((s.ctx.el = .el0 ∧ s.cfg.featIDST = true ∧ (s.ctx.el2Enabled = true ∧ s.ctx.tge = 1#1) ∧
          f = .systemAccessTrap .el2 0x18) ∨
       (s.ctx.el = .el0 ∧ s.cfg.featIDST = true ∧ ¬(s.ctx.el2Enabled = true ∧ s.ctx.tge = 1#1) ∧
          f = .systemAccessTrap .el1 0x18) ∨
       (s.ctx.el = .el1 ∧ (s.ctx.el2Enabled = true ∧ s.ctx.tid3 = 1#1) ∧ f = .systemAccessTrap .el2 0x18) ∨
       (s.ctx.el = .el0 ∧ s.cfg.featIDST = false ∧ f = .undefined))) ∨
    ((∃ t, i = .msrIdAa64mmfr0El1 t) ∧ f = .undefined)

/-- Counts over the 64 cells of 95_test_vectors.md T5: Undefined 8, trap to EL1 6, trap to EL2 6, Return 44. -/
def Obligations.AccessTableCounts : Prop :=
  let levels : List ExceptionLevel := [.el0, .el1, .el2, .el3]
  let cells := levels.flatMap fun el => [false, true].flatMap fun idst => [false, true].flatMap fun e2 =>
    [0#1, 1#1].flatMap fun tge => [0#1, 1#1].map fun tid3 =>
      access ⟨0x101125#64, true, true, idst, false, false, false⟩ ⟨el, e2, tge, tid3⟩
  cells.count .undefined = 8 ∧ cells.count (.trapped .el1 0x18) = 6 ∧ cells.count (.trapped .el2 0x18) = 6 ∧
    cells.count (.returned 0x101125#64) = 44

/-- Which HCR_EL2 bit is not consulted where (40_mrs_read.md section 1, corner cases (b), (c), (d)): TID3 never at EL0,
TGE never at EL1, neither at EL2 or EL3, and neither anywhere while EL2 is not enabled. -/
def Obligations.ControlBitsNotConsulted : Prop :=
  ∀ (c : Cfg) (x : Ctx) (b b' : BitVec 1),
    (x.el = .el0 → access c { x with tid3 := b } = access c x) ∧
    (x.el = .el1 → access c { x with tge := b } = access c x) ∧
    ((x.el = .el2 ∨ x.el = .el3 ∨ x.el2Enabled = false) → access c { x with tge := b, tid3 := b' } = access c x)

/-- A trapped read retried at the trap's target succeeds, or is trapped once more to EL2, where it succeeds
(60_exceptions.md section 4, the consequence an embedding model must keep). It covers the retry in the context of the
trap with its level changed and no other context: DESIGN CHOICE, log entry 28. What the read does in any other context
at those levels is the statement ReadCompletesExactlyWhenAllowed. -/
def Obligations.RetryAtTrapTargetSucceeds : Prop :=
  ∀ (s : State) (t : RegNumber) (target : TrapTarget) (n : Nat),
    exec (.mrsIdAa64mmfr0El1 t) s = .fault (.systemAccessTrap target n) →
      (∃ s', exec (.mrsIdAa64mmfr0El1 t) (atTarget s target) = .next s') ∨
      (target = .el1 ∧ exec (.mrsIdAa64mmfr0El1 t) (atTarget s .el1) = .fault (.systemAccessTrap .el2 n) ∧
        ∃ s', exec (.mrsIdAa64mmfr0El1 t) (atTarget s .el2) = .next s')

/-- Determinism of the outcome (40_mrs_read.md sections 2, (g), and 3): whether a read completes, and which exception it
raises, depends on the context and on FEAT_IDST alone, not on the destination, the value, the registers, `pc`, or any
other member of the configuration. -/
def Obligations.OutcomeDependsOnContextAndIDSTAlone : Prop :=
  ∀ (s₁ s₂ : State) (t₁ t₂ : RegNumber), s₁.ctx = s₂.ctx → s₁.cfg.featIDST = s₂.cfg.featIDST →
    (∃ f, exec (.mrsIdAa64mmfr0El1 t₁) s₁ = .fault f ∧ exec (.mrsIdAa64mmfr0El1 t₂) s₂ = .fault f) ∨
    (∃ r₁ r₂, exec (.mrsIdAa64mmfr0El1 t₁) s₁ = .next r₁ ∧ exec (.mrsIdAa64mmfr0El1 t₂) s₂ = .next r₂)

/-- No instruction reads a general register (10_state.md Part 3): of two states that differ only in their general
registers, both stop for the same reason or both complete; then the results agree in all but the general registers, and
each general register either holds the same value in both results or is untouched in both. -/
def Obligations.GeneralRegistersAreNeverRead : Prop :=
  ∀ (i : Instr) (s : State) (y : Vector Word 31),
    (∃ f, exec i s = .fault f ∧ exec i { s with x := y } = .fault f) ∨
    (∃ r₁ r₂, exec i s = .next r₁ ∧ exec i { s with x := y } = .next r₂ ∧
      r₁.pc = r₂.pc ∧ r₁.cfg = r₂.cfg ∧ r₁.ctx = r₂.ctx ∧ r₁.arriving = r₂.arriving ∧ r₁.text = r₂.text ∧
      ∀ n : Fin 31, r₁.readX n = r₂.readX n ∨ (r₁.readX n = s.readX n ∧ r₂.readX n = y[n]))

/-- EL0 learns nothing of the register (95_test_vectors.md P4: "EL0 never reads this register"): a step at EL0 never
completes, and with any other register value it stops for the same reason. The level is that of the context the step
receives (log entry 7). -/
def Obligations.EL0LearnsNothingOfTheRegister : Prop :=
  ∀ (s : State) (v : Word), s.takeContext.ctx.el = .el0 →
    (∃ f, step s = .fault f ∧ step { s with cfg := { s.cfg with V := v } } = .fault f) ∨
    (∃ r, step s = .refused r ∧ step { s with cfg := { s.cfg with V := v } } = .refused r)

/-! ### The step -/

/-- A step runs the decoded instruction (40_mrs_read.md section 5): with the text placed and its word at `pc` decoding
to `i`, the step is `exec i` in the state that has received its context (D14, log entry 7). -/
def Obligations.StepRunsTheDecodedInstruction : Prop :=
  ∀ (s : State) (w : InstrWord) (i : Instr),
    programPlaced s.text = true → fetchWord s.text s.pc = some w → decode w = .instr i →
      step s = exec i s.takeContext

/-- In a placed text an address has a word exactly when it is `base + 4k` for a `k` below the number of words, and the
word is then word `k`; so at the end of the text, and at every other address, there is none (70_reset_and_hazards.md
section 4; DESIGN CHOICE, log entry 5). -/
def Obligations.FetchFindsEachWord : Prop :=
  ∀ p : Program, programPlaced p = true →
    (∀ (pc : Word) (w : InstrWord), fetchWord p pc = some w ↔
      ∃ k, k < p.words.length ∧ pc = p.base + BitVec.ofNat 64 (4 * k) ∧ p.words[k]? = some w) ∧
    (∀ k, k ≤ p.words.length → fetchWord p (p.base + BitVec.ofNat 64 (4 * k)) = p.words[k]?)

/-- The word the host gives is the word the next step runs (log entry 21), unless the one-word program would wrap. -/
def Obligations.WithFetchWordIsRunNext : Prop :=
  ∀ (s : State) (nbits w : Nat) (i : Instr),
    s.pc.toNat + 4 < 2 ^ 64 → decodeTableWord nbits w = some i →
      step (s.withFetchWord nbits w) = exec i (s.withFetchWord nbits w).takeContext

/-- When a step refuses, and with which name (30_encoding.md section 4; the model's log entries 5 and 6): never for any
other reason. -/
def Obligations.StepRefusesExactly : Prop :=
  ∀ (s : State) (r : Refusal), step s = .refused r ↔
    (programPlaced s.text = false ∧ r = .programAcrossTop) ∨
    (programPlaced s.text = true ∧ fetchWord s.text s.pc = none ∧ r = .noInstructionWord) ∨
    (programPlaced s.text = true ∧
      ∃ w, fetchWord s.text s.pc = some w ∧ decode w = .notThisHardware ∧ r = .notThisHardware w)

/-- Every completed step, whole (40_mrs_read.md section 5): it is a read that was allowed in the context received; it
writes the register's value to its destination and advances `pc`, and changes nothing else. The model's own or from
general knowledge in it: the context received and the contexts to come (DESIGN CHOICE, log entry 7), number 31 (D6,
PRESUMED, log entry 11), `pc + 4` (D7, PRESUMED, log entry 12). -/
def Obligations.CompletedStepIsAnAllowedRead : Prop :=
  ∀ s s' : State, step s = .next s' →
    ∃ t : RegNumber,
      (∃ w, fetchWord s.text s.pc = some w ∧ decode w = .instr (.mrsIdAa64mmfr0El1 t)) ∧
      readAllowed s.takeContext.ctx ∧
      (∀ n : Fin 31, s'.readX n = if n.val = t.toNat then s.cfg.V else s.readX n) ∧
      s'.pc = s.pc + 4#64 ∧ s'.cfg = s.cfg ∧ s'.text = s.text ∧
      s'.ctx = s.takeContext.ctx ∧ s'.arriving = s.arriving.tail

/-- Where a trap goes (40_mrs_read.md section 2, (d), (e), (f)), from every state that meets the invariant: always with
0x18, never below the level of the instruction and never from EL2 or EL3; to EL2 only if EL2 is enabled and
implemented (the last by the consistency of the context that the invariant holds: D15, log entry 24; the context is the
one the step receives: log entry 7). -/
def Obligations.TrapsGoUpwardsToImplementedLevels : Prop :=
  ∀ (s : State) (target : TrapTarget) (n : Nat), Inv s → step s = .fault (.systemAccessTrap target n) →
    n = 0x18 ∧
    ((s.takeContext.ctx.el = .el0) ∨ (s.takeContext.ctx.el = .el1 ∧ target = .el2)) ∧
    (target = .el2 → s.takeContext.ctx.el2Enabled = true ∧ s.cfg.haveEL2 = true)

/-- The invariant of a run holds right after reset, of every legal configuration (the reset values are the model's own,
log entries 1 to 4 and 27; the configuration of State.reset, log entry 8). -/
def Obligations.InvariantHoldsAtReset : Prop :=
  Inv State.reset ∧ ∀ c : Cfg, c.wf = true → Inv (State.resetWith c)

/-- Every step keeps the invariant: the configuration stays legal, the context consistent with it, the text placed, and
`pc` at a word of the text or at its end (10_state.md Parts 2 and 3; 00_scope.md section 4; log entries 5, 6, 7, 12,
24). -/
def Obligations.StepKeepsTheInvariant : Prop :=
  ∀ s s' : State, Inv s → step s = .next s' → Inv s'

/-- A run of reads completes: whatever the program's length, its destinations and the contexts its steps receive, if
every word is a read and every context allows it, the run reaches the end of the text with the register's value in
exactly the named registers (70_reset_and_hazards.md section 4; 95_test_vectors.md P2). The model's own in it: the word
of a step is found by `pc` (log entry 5), and the contexts come from the list `arriving` (log entry 7). -/
def Obligations.RunOfAllowedReadsCompletes : Prop :=
  ∀ s : State, programPlaced s.text = true → s.pc = s.text.base →
    (∀ w ∈ s.text.words, ∃ t, decode w = .instr (.mrsIdAa64mmfr0El1 t)) →
    (s.arriving = [] → readAllowed s.ctx) → (∀ c ∈ s.arriving, readAllowed c) →
    ∃ s', core.run s.text.words.length s = .next s' ∧ runCompleted s' ∧ s'.cfg = s.cfg ∧ s'.text = s.text ∧
      ∀ n : Fin 31,
        ((∃ t : RegNumber, t.toNat = n.val ∧ ∃ w ∈ s.text.words, decode w = .instr (.mrsIdAa64mmfr0El1 t)) →
          s'.readX n = s.cfg.V) ∧
        ((¬∃ t : RegNumber, t.toNat = n.val ∧ ∃ w ∈ s.text.words, decode w = .instr (.mrsIdAa64mmfr0El1 t)) →
          s'.readX n = s.readX n)

/-- A run that claims success never passed a write form or a foreign word (40_mrs_read.md section 5: a fault is never a
final state of such a run; 95_test_vectors.md P5, P6): `n` completed steps from the first word are `n` reads. That a
step finds its word by `pc` is the model's choice (log entry 5). -/
def Obligations.CompletedRunPassedOnlyReads : Prop :=
  ∀ (s s' : State) (n : Nat), s.pc = s.text.base → core.run n s = .next s' →
    n ≤ s.text.words.length ∧
    ∀ k, k < n → ∃ (w : InstrWord) (t : RegNumber), s.text.words[k]? = some w ∧ decode w = .instr (.mrsIdAa64mmfr0El1 t)

/-- The register is constant (10_state.md, Access rights and constancy; decision D1, log entry 23): whatever a run does,
the configuration is the same after it, and every general register holds what it held or the register's value; two
reads in one run never differ. -/
def Obligations.RegisterIsConstantOverRuns : Prop :=
  ∀ (n : Nat) (s s' : State), core.run n s = .next s' →
    s'.cfg = s.cfg ∧ s'.text = s.text ∧ ∀ k : Fin 31, s'.readX k = s.readX k ∨ s'.readX k = s.cfg.V

/-- Reset does not change the register (70_reset_and_hazards.md section 1; decision D1, log entry 23), and the first read
after a reset returns it. What the other state holds is the model's choice (log entries 1 to 4). -/
def Obligations.ReadAfterResetReturnsTheSameValue : Prop :=
  ∀ (s : State) (t : RegNumber), s.afterReset.cfg = s.cfg ∧
    ∃ s', exec (.mrsIdAa64mmfr0El1 t) s.afterReset = .next s' ∧
      ∀ n : Fin 31, s'.readX n = if n.val = t.toNat then s.cfg.V else 0#64

/-- A configuration is admitted exactly when it is legal, and an illegal one is refused with exactly the lines it fails
(10_state.md Part 2; decision D4, log entry 25; the state after reset, log entries 1 to 4 and
27). -/
def Obligations.IllegalConfigurationsRefusedByName : Prop :=
  ∀ c : Cfg,
    (c.wf = true → admitConfiguration c = .next (State.resetWith c)) ∧
    (c.wf = false → ∃ lines, admitConfiguration c = .refused (.illegalConfiguration lines) ∧ lines ≠ [] ∧
      ∀ l : WfLine, l ∈ lines ↔ wfLineHolds c l = false)

/-- A program is loaded exactly when it does not reach the top of the address space (10_state.md Part 3; log entry 6),
and a loaded one stands with `pc` at its first word and its registers untouched. -/
def Obligations.ProgramsAcrossTheTopRefused : Prop :=
  ∀ (s : State) (p : Program) (first : Ctx) (later : List Ctx),
    (p.base.toNat + 4 * p.words.length < 2 ^ 64 →
      ∃ s', loadProgram s p first later = .next s' ∧ s'.text = p ∧ s'.pc = p.base ∧ s'.ctx = first ∧
        s'.arriving = later ∧ s'.x = s.x ∧ s'.cfg = s.cfg) ∧
    (2 ^ 64 ≤ p.base.toNat + 4 * p.words.length →
      loadProgram s p first later = .refused .programAcrossTop ∧ step { s with text := p } = .refused .programAcrossTop)

/-! ### The register's layout -/

/-- R21: the layout, as pairs [hi:lo] in the table's order with the hexadecimal digits of each field, with no bit left
over and no overlap, and as one formula. -/
def Obligations.LayoutOfTheFifteenFields : Prop :=
  (allFields.map fun f => (fieldLow f + fieldWidth f - 1, fieldLow f)) =
    [(63, 60), (59, 56), (55, 48), (47, 44), (43, 40), (39, 36), (35, 32), (31, 28), (27, 24), (23, 20), (19, 16),
     (15, 12), (11, 8), (7, 4), (3, 0)] ∧
  (allFields.map fun f => ((fieldLow f + fieldWidth f - 1) / 4, fieldLow f / 4)) =
    [(15, 15), (14, 14), (13, 12), (11, 11), (10, 10), (9, 9), (8, 8), (7, 7), (6, 6), (5, 5), (4, 4), (3, 3), (2, 2),
     (1, 1), (0, 0)] ∧
  (∀ b, b < 64 → ∃ f, (fieldLow f ≤ b ∧ b < fieldLow f + fieldWidth f) ∧
    ∀ g, fieldLow g ≤ b ∧ b < fieldLow g + fieldWidth g → g = f) ∧
  (∀ v : Word, v = ecv v ++ fgt v ++ res0_55_48 v ++ exS v ++ tGran4_2 v ++ tGran64_2 v ++ tGran16_2 v ++ tGran4 v
    ++ tGran64 v ++ tGran16 v ++ bigEndEL0 v ++ snsMem v ++ bigEnd v ++ asidBits v ++ paRange v)

/-- Each extraction function is the slice of its heading (41_field_queries.md section 1; slices as in R8; bit numbering
PRESUMED, log entry 15). -/
def Obligations.EachFieldIsItsSlice : Prop :=
  ∀ v : Word,
    (ecv v).toNat = slice v 63 60 ∧ (fgt v).toNat = slice v 59 56 ∧ (res0_55_48 v).toNat = slice v 55 48 ∧
    (exS v).toNat = slice v 47 44 ∧ (tGran4_2 v).toNat = slice v 43 40 ∧ (tGran64_2 v).toNat = slice v 39 36 ∧
    (tGran16_2 v).toNat = slice v 35 32 ∧ (tGran4 v).toNat = slice v 31 28 ∧ (tGran64 v).toNat = slice v 27 24 ∧
    (tGran16 v).toNat = slice v 23 20 ∧ (bigEndEL0 v).toNat = slice v 19 16 ∧ (snsMem v).toNat = slice v 15 12 ∧
    (bigEnd v).toNat = slice v 11 8 ∧ (asidBits v).toNat = slice v 7 4 ∧ (paRange v).toNat = slice v 3 0

/-- Extraction after assembly returns the fifteen values, and assembly after extraction returns the value
(41_field_queries.md section 1). -/
def Obligations.AssembleAndCutAreInverse : Prop :=
  (∀ f : Fields, cut (assemble f) = f) ∧ (∀ v : Word, assemble (cut v) = v)

/-! ### The fields, one by one: position, defined values, reserved values, restrictions -/

/-- R22: ECV. The functionality that FEAT_ECV implements is what the values 0b0001 and 0b0010, and no other, support. -/
def Obligations.EcvFieldTable : Prop :=
  (∀ v : Word,
    (slice v 63 60 = 0b0000 → decodeECV (ecv v) = .ecvNone ∧ ecvSupports (decodeECV (ecv v)) = [] ∧
      ecvExtends (decodeECV (ecv v)) = []) ∧
    (slice v 63 60 = 0b0001 → decodeECV (ecv v) = .ecvBase ∧
      ecvSupports (decodeECV (ecv v)) = [.cnthctlEL2_EL1TVT, .cnthctlEL2_EL1TVCT, .cnthctlEL2_EL1NVPCT,
        .cnthctlEL2_EL1NVVCT, .cnthctlEL2_EVNTIS, .cntkctlEL1_EVNTIS, .cntpctssEL0_views, .cntvctssEL0_views] ∧
      ecvExtends (decodeECV (ecv v)) = [.pmscrEL1_PCT, .pmscrEL2_PCT, .trfcrEL1_TS, .trfcrEL2_TS]) ∧
    (slice v 63 60 = 0b0010 → decodeECV (ecv v) = .ecvWithOffset ∧
      ecvSupports (decodeECV (ecv v)) = ecvSupports .ecvBase ++ [.cnthctlEL2_ECV, .cntpoffEL2] ∧
      ecvExtends (decodeECV (ecv v)) = ecvExtends .ecvBase) ∧
    (0b0010 < slice v 63 60 → decodeECV (ecv v) = .reserved) ∧
    (ecvSupports (decodeECV (ecv v)) ≠ [] ↔ slice v 63 60 = 0b0001 ∨ slice v 63 60 = 0b0010)) ∧
  (∀ c : Cfg, c.wf = true → slice c.V 63 60 ≤ 0b0010 ∧
    (c.archAtLeast8_6 = true → slice c.V 63 60 = 0b0001 ∨ slice c.V 63 60 = 0b0010))

/-- R23: FGT, with the four items it stands for, each conditional on the exception levels that exist; the first is six
registers "and their associated traps". The functionality that FEAT_FGT implements is what the value 0b0001, and no
other, brings. -/
def Obligations.FgtFieldTable : Prop :=
  (∀ v : Word,
    (slice v 59 56 = 0b0000 → decodeFGT (fgt v) = .fgtNone) ∧
    (slice v 59 56 = 0b0001 → decodeFGT (fgt v) = .fgtImplemented) ∧
    (0b0001 < slice v 59 56 → decodeFGT (fgt v) = .reserved) ∧
    (fgtBrings true true (decodeFGT (fgt v)) ≠ [] ↔ slice v 59 56 = 0b0001)) ∧
  (∀ haveEL2 haveEL3 : Bool, fgtBrings haveEL2 haveEL3 .fgtNone = [] ∧
    ∀ item : NamedItem, item ∈ fgtBrings haveEL2 haveEL3 .fgtImplemented ↔
      (haveEL2 = true ∧ item ∈ [NamedItem.trapRegister .hafgrtrEL2, .trapRegister .hdfgrtrEL2, .trapRegister .hdfgwtrEL2,
        .trapRegister .hfgrtrEL2, .trapRegister .hfgitrEL2, .trapRegister .hfgwtrEL2]) ∨
      (haveEL2 = true ∧ item ∈ [NamedItem.trapsOf .hafgrtrEL2, .trapsOf .hdfgrtrEL2, .trapsOf .hdfgwtrEL2,
        .trapsOf .hfgrtrEL2, .trapsOf .hfgitrEL2, .trapsOf .hfgwtrEL2]) ∨
      (haveEL2 = true ∧ item = .mdcrEL2_TDCC) ∨ (haveEL3 = true ∧ item = .mdcrEL3_TDCC) ∨
      (haveEL2 = true ∧ haveEL3 = true ∧ item = .scrEL3_FGTEn)) ∧
  (∀ c : Cfg, c.wf = true → slice c.V 59 56 ≤ 0b0001 ∧ (c.archAtLeast8_6 = true → slice c.V 59 56 = 0b0001))

/-- Bits [55:48] of a legal configuration are zero, and every successful read returns them as zero (10_state.md Part 1;
decision D3, log entry 16). -/
def Obligations.ReservedBitsReadAsZero : Prop :=
  ∀ (s s' : State) (t : RegNumber) (n : Fin 31), s.cfg.wf = true → exec (.mrsIdAa64mmfr0El1 t) s = .next s' →
    n.val = t.toNat → slice (s'.readX n) 55 48 = 0

/-- R25: ExS. The functionality that FEAT_ExS implements is the meaning of the value 0b0001, and of no other. -/
def Obligations.ExSFieldTable : Prop :=
  (∀ v : Word,
    (slice v 47 44 = 0b0000 → decodeExS (exS v) = .allExceptionEntryExitSynchronizing) ∧
    (slice v 47 44 = 0b0001 → decodeExS (exS v) = .nonSynchronizingEntryExitSupported) ∧
    (0b0001 < slice v 47 44 → decodeExS (exS v) = .reserved) ∧
    (decodeExS (exS v) = .nonSynchronizingEntryExitSupported ↔ slice v 47 44 = 0b0001)) ∧
  (∀ c : Cfg, c.wf = true → slice c.V 47 44 ≤ 0b0001)

/-- R27 and R30: the two 64KB granule fields, which have no 52-bit value; zero in TGran64 means supported. -/
def Obligations.Granule64KBFieldTables : Prop :=
  (∀ v : Word,
    (slice v 39 36 = 0b0000 → decodeTGran64_2 (tGran64_2 v) = .seeStage1Field ∧
      stage2Gran64 v = decodeTGran64 (tGran64 v)) ∧
    (slice v 39 36 = 0b0001 → decodeTGran64_2 (tGran64_2 v) = .notSupported ∧ stage2Gran64 v = .notSupported) ∧
    (slice v 39 36 = 0b0010 → decodeTGran64_2 (tGran64_2 v) = .supported ∧ stage2Gran64 v = .supported) ∧
    (0b0010 < slice v 39 36 → decodeTGran64_2 (tGran64_2 v) = .reserved) ∧
    (slice v 27 24 = 0b0000 → decodeTGran64 (tGran64 v) = .supported) ∧
    (slice v 27 24 = 0b1111 → decodeTGran64 (tGran64 v) = .notSupported) ∧
    (slice v 27 24 ≠ 0b0000 → slice v 27 24 ≠ 0b1111 → decodeTGran64 (tGran64 v) = .reserved)) ∧
  (∀ c : Cfg, c.wf = true → slice c.V 39 36 ≤ 0b0010 ∧ (slice c.V 27 24 = 0b0000 ∨ slice c.V 27 24 = 0b1111))

/-- The 4KB and 16KB granule fields (10_state.md Part 1), with the 52-bit values that exist only with FEAT_LPA2
(decision D17, log entry 18) and the opposite meaning of zero in TGran4 and TGran16 (90_conflicts.md C3). -/
def Obligations.Granule4KBAnd16KBFieldTables : Prop :=
  ∀ (v : Word) (lpa2 : Bool),
    (decodeTGran4 (tGran4 v) lpa2 =
      if slice v 31 28 = 0b0000 then .supported
      else if slice v 31 28 = 0b1111 then .notSupported
      else if slice v 31 28 = 0b0001 ∧ lpa2 = true then .supported52 else .reserved) ∧
    (decodeTGran16 (tGran16 v) lpa2 =
      if slice v 23 20 = 0b0001 then .supported
      else if slice v 23 20 = 0b0000 then .notSupported
      else if slice v 23 20 = 0b0010 ∧ lpa2 = true then .supported52 else .reserved) ∧
    (decodeTGran4_2 (tGran4_2 v) lpa2 =
      if slice v 43 40 = 0b0001 then .notSupported
      else if slice v 43 40 = 0b0010 then .supported
      else if slice v 43 40 = 0b0000 then .seeStage1Field
      else if slice v 43 40 = 0b0011 ∧ lpa2 = true then .supported52 else .reserved) ∧
    (decodeTGran16_2 (tGran16_2 v) lpa2 =
      if slice v 35 32 = 0b0001 then .notSupported
      else if slice v 35 32 = 0b0010 then .supported
      else if slice v 35 32 = 0b0000 then .seeStage1Field
      else if slice v 35 32 = 0b0011 ∧ lpa2 = true then .supported52 else .reserved)

/-- Stage-2 support (41_field_queries.md section 2; decision D18, log entry 18): a zero `_2` field hands over the whole
answer of the field without `_2`, the 52-bit one too; any other value is the answer itself (1 not supported, 2
supported, 3 with FEAT_LPA2 supported with 52 bits but for 64KB, else reserved) and makes that field irrelevant. -/
def Obligations.Stage2FollowsStage1OnlyWhenZero : Prop :=
  ∀ c : Cfg,
    (slice c.V 43 40 = 0 → granuleReport c .stage2 .kb4 = granuleReport c .stage1 .kb4) ∧
    (slice c.V 39 36 = 0 → granuleReport c .stage2 .kb64 = granuleReport c .stage1 .kb64) ∧
    (slice c.V 35 32 = 0 → granuleReport c .stage2 .kb16 = granuleReport c .stage1 .kb16) ∧
    (slice c.V 43 40 ≠ 0 → granuleReport c .stage2 .kb4 =
      if slice c.V 43 40 = 1 then .notSupported
      else if slice c.V 43 40 = 2 then .supported
      else if slice c.V 43 40 = 3 ∧ c.featLPA2 = true then .supported52 else .reserved) ∧
    (slice c.V 39 36 ≠ 0 → granuleReport c .stage2 .kb64 =
      if slice c.V 39 36 = 1 then .notSupported else if slice c.V 39 36 = 2 then .supported else .reserved) ∧
    (slice c.V 35 32 ≠ 0 → granuleReport c .stage2 .kb16 =
      if slice c.V 35 32 = 1 then .notSupported
      else if slice c.V 35 32 = 2 then .supported
      else if slice c.V 35 32 = 3 ∧ c.featLPA2 = true then .supported52 else .reserved) ∧
    (∀ w : Word, slice c.V 43 40 ≠ 0 → slice w 43 40 = slice c.V 43 40 →
      granuleReport { c with V := w } .stage2 .kb4 = granuleReport c .stage2 .kb4) ∧
    (∀ w : Word, slice c.V 39 36 ≠ 0 → slice w 39 36 = slice c.V 39 36 →
      granuleReport { c with V := w } .stage2 .kb64 = granuleReport c .stage2 .kb64) ∧
    (∀ w : Word, slice c.V 35 32 ≠ 0 → slice w 35 32 = slice c.V 35 32 →
      granuleReport { c with V := w } .stage2 .kb16 = granuleReport c .stage2 .kb16)

/-- R32 and R34: BigEndEL0 and BigEnd. When BigEnd is not 0b0000 a legal BigEndEL0 is 0b0000 and says nothing. -/
def Obligations.BigEndFieldTables : Prop :=
  (∀ v : Word,
    (slice v 11 8 = 0b0000 → eeConfigurable v = .no ∧
      (slice v 19 16 = 0b0000 → e0eConfigurable v = .no) ∧
      (slice v 19 16 = 0b0001 → e0eConfigurable v = .yes) ∧
      (0b0001 < slice v 19 16 → e0eConfigurable v = .reserved)) ∧
    (slice v 11 8 = 0b0001 → eeConfigurable v = .yes ∧ e0eConfigurable v = .yes) ∧
    (0b0001 < slice v 11 8 → eeConfigurable v = .reserved ∧ e0eConfigurable v = .reserved)) ∧
  (∀ c : Cfg, c.wf = true → slice c.V 11 8 ≤ 0b0001 ∧ slice c.V 19 16 ≤ 0b0001 ∧
    (slice c.V 11 8 ≠ 0b0000 → slice c.V 19 16 = 0b0000))

/-- SNSMem (10_state.md Part 1; decision D21, log entry 26, and the reading of 90_conflicts.md C6): with EL3 the value
is 0b0001, and 0b0001 without EL3 is legal. -/
def Obligations.SNSMemFieldTable : Prop :=
  (∀ v : Word,
    (slice v 15 12 = 0b0000 → decodeSNSMem (snsMem v) = .noSecureNonSecureDistinction) ∧
    (slice v 15 12 = 0b0001 → decodeSNSMem (snsMem v) = .secureNonSecureDistinction) ∧
    (0b0001 < slice v 15 12 → decodeSNSMem (snsMem v) = .reserved)) ∧
  (∀ c : Cfg, c.wf = true → slice c.V 15 12 ≤ 0b0001 ∧ (c.haveEL3 = true → slice c.V 15 12 = 0b0001)) ∧
  (∃ c : Cfg, c.wf = true ∧ c.haveEL3 = false ∧ slice c.V 15 12 = 0b0001)

/-- R35: ASIDBits. 0b0001 is reserved: the encoding is not a count and not a power. -/
def Obligations.ASIDBitsFieldTable : Prop :=
  (∀ v : Word,
    (slice v 7 4 = 0b0000 → asidSize (asidBits v) = .bitsOf 8) ∧
    (slice v 7 4 = 0b0010 → asidSize (asidBits v) = .bitsOf 16) ∧
    (slice v 7 4 ≠ 0b0000 → slice v 7 4 ≠ 0b0010 → asidSize (asidBits v) = .reserved)) ∧
  (∀ c : Cfg, c.wf = true → slice c.V 7 4 = 0b0000 ∨ slice c.V 7 4 = 0b0010)

/-- R36: PARange, each value with its number of bits and the size the source prints; 0b0110 only with FEAT_LPA. -/
def Obligations.PARangeFieldTable : Prop :=
  (∀ (v : Word) (lpa : Bool),
    (slice v 3 0 = 0b0000 → paBits (paRange v) lpa = .bitsOf 32 ∧ spaceBytes (.bitsOf 32) = some (4 * 2 ^ 30)) ∧
    (slice v 3 0 = 0b0001 → paBits (paRange v) lpa = .bitsOf 36 ∧ spaceBytes (.bitsOf 36) = some (64 * 2 ^ 30)) ∧
    (slice v 3 0 = 0b0010 → paBits (paRange v) lpa = .bitsOf 40 ∧ spaceBytes (.bitsOf 40) = some (2 ^ 40)) ∧
    (slice v 3 0 = 0b0011 → paBits (paRange v) lpa = .bitsOf 42 ∧ spaceBytes (.bitsOf 42) = some (4 * 2 ^ 40)) ∧
    (slice v 3 0 = 0b0100 → paBits (paRange v) lpa = .bitsOf 44 ∧ spaceBytes (.bitsOf 44) = some (16 * 2 ^ 40)) ∧
    (slice v 3 0 = 0b0101 → paBits (paRange v) lpa = .bitsOf 48 ∧ spaceBytes (.bitsOf 48) = some (256 * 2 ^ 40)) ∧
    (slice v 3 0 = 0b0110 → paBits (paRange v) true = .bitsOf 52 ∧ paBits (paRange v) false = .reserved ∧
      spaceBytes (.bitsOf 52) = some (4 * 2 ^ 50)) ∧
    (0b0110 < slice v 3 0 → paBits (paRange v) lpa = .reserved)) ∧
  (∀ c : Cfg, c.wf = true → slice c.V 3 0 ≤ 0b0110 ∧ (slice c.V 3 0 = 0b0110 → c.featLPA = true))

/-! ### Legality -/

/-- `WF(cfg)` is the conjunction of its nineteen lines, written out (10_state.md Part 2; decisions D3 and D17, log
entries 16 and 18). -/
def Obligations.LegalExactlyWhenEveryLineHolds : Prop :=
  ∀ c : Cfg, c.wf = true ↔
    slice c.V 63 60 ≤ 2 ∧ (c.archAtLeast8_6 = true → slice c.V 63 60 ≠ 0) ∧
    slice c.V 59 56 ≤ 1 ∧ (c.archAtLeast8_6 = true → slice c.V 59 56 = 1) ∧
    slice c.V 55 48 = 0 ∧ slice c.V 47 44 ≤ 1 ∧
    (slice c.V 43 40 ≤ 2 ∨ (slice c.V 43 40 = 3 ∧ c.featLPA2 = true)) ∧
    slice c.V 39 36 ≤ 2 ∧
    (slice c.V 35 32 ≤ 2 ∨ (slice c.V 35 32 = 3 ∧ c.featLPA2 = true)) ∧
    (slice c.V 31 28 = 0 ∨ slice c.V 31 28 = 15 ∨ (slice c.V 31 28 = 1 ∧ c.featLPA2 = true)) ∧
    (slice c.V 27 24 = 0 ∨ slice c.V 27 24 = 15) ∧
    (slice c.V 23 20 ≤ 1 ∨ (slice c.V 23 20 = 2 ∧ c.featLPA2 = true)) ∧
    slice c.V 19 16 ≤ 1 ∧ (slice c.V 11 8 ≠ 0 → slice c.V 19 16 = 0) ∧
    slice c.V 15 12 ≤ 1 ∧ (c.haveEL3 = true → slice c.V 15 12 ≠ 0) ∧
    slice c.V 11 8 ≤ 1 ∧ (slice c.V 7 4 = 0 ∨ slice c.V 7 4 = 2) ∧
    (slice c.V 3 0 ≤ 5 ∨ (slice c.V 3 0 = 6 ∧ c.featLPA = true))

/-- Each named line of `WF(cfg)` is its own condition (10_state.md Part 2: the name and the condition of each row;
decisions D3, D17 and D20, log entries 16, 18 and 26), so that a configuration is refused by the right names. -/
def Obligations.EachNamedLineIsItsCondition : Prop :=
  ∀ c : Cfg,
    (wfLineHolds c .ecv = true ↔ slice c.V 63 60 ≤ 2) ∧
    (wfLineHolds c .ecv86 = true ↔ (c.archAtLeast8_6 = true → slice c.V 63 60 = 1 ∨ slice c.V 63 60 = 2)) ∧
    (wfLineHolds c .fgt = true ↔ slice c.V 59 56 ≤ 1) ∧
    (wfLineHolds c .fgt86 = true ↔ (c.archAtLeast8_6 = true → slice c.V 59 56 = 1)) ∧
    (wfLineHolds c .res0 = true ↔ slice c.V 55 48 = 0) ∧
    (wfLineHolds c .exS = true ↔ slice c.V 47 44 ≤ 1) ∧
    (wfLineHolds c .tGran4_2 = true ↔ slice c.V 43 40 ≤ 2 ∨ (slice c.V 43 40 = 3 ∧ c.featLPA2 = true)) ∧
    (wfLineHolds c .tGran64_2 = true ↔ slice c.V 39 36 ≤ 2) ∧
    (wfLineHolds c .tGran16_2 = true ↔ slice c.V 35 32 ≤ 2 ∨ (slice c.V 35 32 = 3 ∧ c.featLPA2 = true)) ∧
    (wfLineHolds c .tGran4 = true ↔
      slice c.V 31 28 = 0 ∨ slice c.V 31 28 = 15 ∨ (slice c.V 31 28 = 1 ∧ c.featLPA2 = true)) ∧
    (wfLineHolds c .tGran64 = true ↔ slice c.V 27 24 = 0 ∨ slice c.V 27 24 = 15) ∧
    (wfLineHolds c .tGran16 = true ↔ slice c.V 23 20 ≤ 1 ∨ (slice c.V 23 20 = 2 ∧ c.featLPA2 = true)) ∧
    (wfLineHolds c .bigEndEL0 = true ↔ slice c.V 19 16 ≤ 1) ∧
    (wfLineHolds c .bigEndEL0Inv = true ↔ (slice c.V 11 8 ≠ 0 → slice c.V 19 16 = 0)) ∧
    (wfLineHolds c .snsMem = true ↔ slice c.V 15 12 ≤ 1) ∧
    (wfLineHolds c .snsMemEL3 = true ↔ (c.haveEL3 = true → slice c.V 15 12 ≠ 0)) ∧
    (wfLineHolds c .bigEnd = true ↔ slice c.V 11 8 ≤ 1) ∧
    (wfLineHolds c .asidBits = true ↔ slice c.V 7 4 = 0 ∨ slice c.V 7 4 = 2) ∧
    (wfLineHolds c .paRange = true ↔ slice c.V 3 0 ≤ 5 ∨ (slice c.V 3 0 = 6 ∧ c.featLPA = true))

/-- The consistency of a context with a configuration is three conditions (00_scope.md section 4): EL2 enabled implies
that EL2 is implemented, and so does EL2, and EL3 implies that EL3 is. The source states none of them: they are the spec's
decision D15 from general knowledge (DESIGN CHOICE, log entry 24), and no step checks them. -/
def Obligations.ContextConsistencyIsThreeConditions : Prop :=
  ∀ (c : Cfg) (x : Ctx), x.wf c = true ↔
    (x.el2Enabled = true → c.haveEL2 = true) ∧ (x.el = .el2 → c.haveEL2 = true) ∧ (x.el = .el3 → c.haveEL3 = true)

/-- The tables and `WF` agree (41_field_queries.md section 3, both directions): a configuration is legal exactly when no
decode function answers `Reserved`, bits [55:48] are zero, and the five lines no decode function sees hold. That bits [55:48]
must be zero, and that a 52-bit granule value without FEAT_LPA2 is reserved, are decisions D3 and D17 (log entries 16,
18). -/
def Obligations.LegalityAgreesWithTheDecoders : Prop :=
  ∀ c : Cfg, c.wf = true ↔
    (someAnswerReserved c = false ∧ slice c.V 55 48 = 0 ∧
      wfLineHolds c .ecv86 = true ∧ wfLineHolds c .fgt86 = true ∧ wfLineHolds c .snsMemEL3 = true ∧
      wfLineHolds c .bigEndEL0Inv = true ∧ wfLineHolds c .bigEndEL0 = true)

/-- When no decode function answers `Reserved` and bits [55:48] are zero, the only lines that can still fail are the four
cross-conditions and, only together with WF_BigEndEL0_inv, WF_BigEndEL0 (41_field_queries.md section 3; decisions D3 and
D17, log entries 16 and 18). -/
def Obligations.LinesTheDecodersDoNotSee : Prop :=
  ∀ c : Cfg, someAnswerReserved c = false → slice c.V 55 48 = 0 →
    (∀ l : WfLine, wfLineHolds c l = false → l ∈ [WfLine.ecv86, .fgt86, .snsMemEL3, .bigEndEL0Inv, .bigEndEL0]) ∧
    (wfLineHolds c .bigEndEL0 = false → wfLineHolds c .bigEndEL0Inv = false)

/-- The Boolean choice that admits every value legal for some choice (10_state.md Part 2): not Armv8.6, no EL3, with
FEAT_LPA and FEAT_LPA2 (decisions D3, D17, D19, D20, D21, log entries 16, 18, 26). -/
def Obligations.OneChoiceAdmitsAllLegalValues : Prop :=
  ∀ (v : Word) (haveEL2 idst : Bool),
    legalForSome v ↔ Cfg.wf ⟨v, haveEL2, false, idst, true, true, false⟩ = true

/-- The count a model can check itself against (10_state.md Part 2; 95_test_vectors.md T4): 870,912 legal values. It
counts what the decisions D3, D17, D19 and D21 leave legal (log entries 16, 18, 26). -/
def Obligations.LegalValueCount : Prop := Nat.card { v : Word // legalForSome v } = 870912

/-- The second count (95_test_vectors.md T4): with Armv8.6 and EL3, without FEAT_LPA and FEAT_LPA2, 31,104 values (log entries
16, 18, 26). -/
def Obligations.LegalValueCountOfAnArmv86WithEL3 : Prop :=
  ∀ haveEL2 idst : Bool,
    Nat.card { v : Word // Cfg.wf ⟨v, haveEL2, true, idst, false, false, true⟩ = true } = 31104

/-! ### What software concludes from a value read -/

/-- On a legal configuration every query has an answer: the number of physical address bits is one of seven, so the space
holds 2^32 to 2^52 bytes, the ASID size is 8 or 16, and no decode function, no granule report and no byte-order answer
is `Reserved` (20_memory.md sections 1 and 5; 41_field_queries.md section 3; decision D17, log entry 18). -/
def Obligations.LegalValuesAnswerEveryQuery : Prop :=
  ∀ c : Cfg, c.wf = true →
    (∃ n ∈ [32, 36, 40, 42, 44, 48, 52], physicalAddressBits c = .bitsOf n ∧
      spaceBytes (physicalAddressBits c) = some (2 ^ n)) ∧
    (asidWidth c = .bitsOf 8 ∨ asidWidth c = .bitsOf 16) ∧
    (∀ (st : Stage) (g : Granule), granuleReport c st g ≠ .reserved) ∧
    decodeECV (ecv c.V) ≠ .reserved ∧ decodeFGT (fgt c.V) ≠ .reserved ∧ decodeExS (exS c.V) ≠ .reserved ∧
    decodeSNSMem (snsMem c.V) ≠ .reserved ∧
    decodeTGran4_2 (tGran4_2 c.V) c.featLPA2 ≠ .reserved ∧ decodeTGran64_2 (tGran64_2 c.V) ≠ .reserved ∧
    decodeTGran16_2 (tGran16_2 c.V) c.featLPA2 ≠ .reserved ∧
    eeConfigurable c.V ≠ .reserved ∧ e0eConfigurable c.V ≠ .reserved

/-- What boot code may do (70_reset_and_hazards.md section 2), in field values of a legal configuration: which granules
are available at each stage, and which byte-order bits may be changed. A 52-bit granule counts as supported (decision
D18, log entry 18). -/
def Obligations.WhatBootCodeMayConfigure : Prop :=
  ∀ c : Cfg, c.wf = true →
    (granuleAvailable c .stage1 .kb4 = true ↔ slice c.V 31 28 ≠ 15) ∧
    (granuleAvailable c .stage1 .kb64 = true ↔ slice c.V 27 24 ≠ 15) ∧
    (granuleAvailable c .stage1 .kb16 = true ↔ slice c.V 23 20 ≠ 0) ∧
    (granuleAvailable c .stage2 .kb4 = true ↔
      2 ≤ slice c.V 43 40 ∨ (slice c.V 43 40 = 0 ∧ slice c.V 31 28 ≠ 15)) ∧
    (granuleAvailable c .stage2 .kb64 = true ↔
      slice c.V 39 36 = 2 ∨ (slice c.V 39 36 = 0 ∧ slice c.V 27 24 ≠ 15)) ∧
    (granuleAvailable c .stage2 .kb16 = true ↔
      2 ≤ slice c.V 35 32 ∨ (slice c.V 35 32 = 0 ∧ slice c.V 23 20 ≠ 0)) ∧
    (mayChangeEE c = true ↔ slice c.V 11 8 = 1) ∧
    (mayChangeE0E c = true ↔ slice c.V 11 8 = 1 ∨ slice c.V 19 16 = 1)

/-- The features read off the fields agree with the decode functions (00_scope.md section 4; decision D16, log entry
17). -/
def Obligations.FeaturesAgreeWithDecodedMeanings : Prop :=
  ∀ v : Word,
    (featECV v = true ↔ slice v 63 60 = 1 ∨ slice v 63 60 = 2) ∧
    (featECV v = true ↔ decodeECV (ecv v) = .ecvBase ∨ decodeECV (ecv v) = .ecvWithOffset) ∧
    (featFGT v = true ↔ slice v 59 56 = 1) ∧ (featFGT v = true ↔ decodeFGT (fgt v) = .fgtImplemented) ∧
    (featExS v = true ↔ slice v 47 44 = 1) ∧
    (featExS v = true ↔ decodeExS (exS v) = .nonSynchronizingEntryExitSupported)

/-- INFORMATIVE (95_test_vectors.md T7; general knowledge, log entry 22): the syndrome an embedding model would record
is 0x6230000F + (t << 5). No step uses it. -/
def Obligations.SyndromeOutlineFormula : Prop :=
  ∀ t : RegNumber, (esrOutline t).toNat = 0x6230000F + t.toNat * 32
end

