-- ==== Sys2Proof/Laws/State.lean ====
section
/-! SUPPORT. The small lemmas of State: one per field per update, and reading a register after a write. -/

namespace Sys2Proof.Machine

/-! ### `destination` -/

theorem destination_of_lt {t : RegNumber} (h : t.toNat < 31) : destination t = some ⟨t.toNat, h⟩ := by
  simp [destination, h]

theorem destination_31 : destination 31#5 = none := by decide

theorem destination_eq_some {t : RegNumber} {n : Fin 31} : destination t = some n ↔ n.val = t.toNat := by
  unfold destination
  split
  · rw [Option.some.injEq, Fin.ext_iff]; exact eq_comm
  · have := n.isLt
    simp; omega

theorem destination_eq_none {t : RegNumber} : destination t = none ↔ t = 31#5 := by
  have := t.isLt
  unfold destination
  split
  · simp only [reduceCtorEq, false_iff]; rintro rfl; simp_all
  · simp only [true_iff]; apply BitVec.eq_of_toNat_eq; simp; omega

/-! ### `writeX` -/

@[simp] theorem writeX_cfg (s : State) (t : RegNumber) (v : Word) : (s.writeX t v).cfg = s.cfg := by
  unfold State.writeX; split <;> rfl
@[simp] theorem writeX_ctx (s : State) (t : RegNumber) (v : Word) : (s.writeX t v).ctx = s.ctx := by
  unfold State.writeX; split <;> rfl
@[simp] theorem writeX_arriving (s : State) (t : RegNumber) (v : Word) : (s.writeX t v).arriving = s.arriving := by
  unfold State.writeX; split <;> rfl
@[simp] theorem writeX_pc (s : State) (t : RegNumber) (v : Word) : (s.writeX t v).pc = s.pc := by
  unfold State.writeX; split <;> rfl
@[simp] theorem writeX_text (s : State) (t : RegNumber) (v : Word) : (s.writeX t v).text = s.text := by
  unfold State.writeX; split <;> rfl

/-- A write to number 31 is discarded (R43). -/
theorem writeX_31 (s : State) (v : Word) : s.writeX 31#5 v = s := by
  simp [State.writeX, destination_31]

/-- Reading a general register after a write: the named register holds the value, every other one what it held. -/
theorem readX_writeX (s : State) (t : RegNumber) (v : Word) (n : Fin 31) :
    (s.writeX t v).readX n = if n.val = t.toNat then v else s.readX n := by
  unfold State.writeX
  split
  · next m hm =>
    rw [destination_eq_some] at hm
    simp only [State.readX, Fin.getElem_fin]
    rw [Vector.getElem_set]
    by_cases h : n.val = t.toNat
    · simp [h, hm]
    · have : m.val ≠ n.val := by omega
      simp [h, this]
  · next hm =>
    rw [destination_eq_none] at hm
    have h : ¬n.val = t.toNat := by have := n.isLt; rw [hm]; simp; omega
    simp [h]

/-! ### `advancePc` -/

@[simp] theorem advancePc_cfg (s : State) : s.advancePc.cfg = s.cfg := rfl
@[simp] theorem advancePc_ctx (s : State) : s.advancePc.ctx = s.ctx := rfl
@[simp] theorem advancePc_arriving (s : State) : s.advancePc.arriving = s.arriving := rfl
@[simp] theorem advancePc_x (s : State) : s.advancePc.x = s.x := rfl
@[simp] theorem advancePc_readX (s : State) (n : Fin 31) : s.advancePc.readX n = s.readX n := rfl
@[simp] theorem advancePc_pc (s : State) : s.advancePc.pc = s.pc + 4#64 := rfl
@[simp] theorem advancePc_text (s : State) : s.advancePc.text = s.text := rfl

/-! ### `takeContext` -/

@[simp] theorem takeContext_cfg (s : State) : s.takeContext.cfg = s.cfg := by
  unfold State.takeContext; split <;> rfl
@[simp] theorem takeContext_x (s : State) : s.takeContext.x = s.x := by
  unfold State.takeContext; split <;> rfl
@[simp] theorem takeContext_readX (s : State) (n : Fin 31) : s.takeContext.readX n = s.readX n := by
  unfold State.takeContext; split <;> rfl
@[simp] theorem takeContext_pc (s : State) : s.takeContext.pc = s.pc := by
  unfold State.takeContext; split <;> rfl
@[simp] theorem takeContext_text (s : State) : s.takeContext.text = s.text := by
  unfold State.takeContext; split <;> rfl
@[simp] theorem takeContext_arriving (s : State) : s.takeContext.arriving = s.arriving.tail := by
  unfold State.takeContext; split <;> simp_all

/-- The context an instruction executes in: the first arriving one, or the present one when none arrives. -/
theorem takeContext_ctx (s : State) : s.takeContext.ctx = s.arriving.head?.getD s.ctx := by
  unfold State.takeContext; split <;> simp_all

/-! ### `withFetchWord`, `resetWith` -/

@[simp] theorem withFetchWord_cfg (s : State) (n w : Nat) : (s.withFetchWord n w).cfg = s.cfg := rfl
@[simp] theorem withFetchWord_ctx (s : State) (n w : Nat) : (s.withFetchWord n w).ctx = s.ctx := rfl
@[simp] theorem withFetchWord_arriving (s : State) (n w : Nat) : (s.withFetchWord n w).arriving = s.arriving := rfl
@[simp] theorem withFetchWord_x (s : State) (n w : Nat) : (s.withFetchWord n w).x = s.x := rfl
@[simp] theorem withFetchWord_pc (s : State) (n w : Nat) : (s.withFetchWord n w).pc = s.pc := rfl
@[simp] theorem withFetchWord_text (s : State) (n w : Nat) :
    (s.withFetchWord n w).text = { base := s.pc, words := [tableWord n w] } := rfl

@[simp] theorem resetWith_cfg (c : Cfg) : (State.resetWith c).cfg = c := rfl
@[simp] theorem resetWith_arriving (c : Cfg) : (State.resetWith c).arriving = [] := rfl
@[simp] theorem resetWith_pc (c : Cfg) : (State.resetWith c).pc = 0#64 := rfl
@[simp] theorem resetWith_text (c : Cfg) : (State.resetWith c).text = { base := 0#64, words := [] } := rfl
@[simp] theorem resetWith_readX (c : Cfg) (n : Fin 31) : (State.resetWith c).readX n = 0#64 := by
  simp [State.resetWith, State.readX]

end Sys2Proof.Machine
end

