-- ==== Sys2Proof/Laws/Access.lean ====
section
/-! SUPPORT. What the shared operations can do, said once: the access decision (R101), the completion of a read (R103, R104),
and one step. -/

namespace Sys2Proof.Machine

/-- The rows of rule R101's table, as one inversion: which outcome `access` gives, and under which condition. -/
theorem access_cases (c : Cfg) (x : Ctx) :
    (x.el = .el0 ∧ c.featIDST = false ∧ access c x = .undefined) ∨
    (x.el = .el0 ∧ c.featIDST = true ∧ ¬(x.el2Enabled = true ∧ x.tge = 1#1) ∧ access c x = .trapped .el1 0x18) ∨
    (x.el = .el0 ∧ c.featIDST = true ∧ (x.el2Enabled = true ∧ x.tge = 1#1) ∧ access c x = .trapped .el2 0x18) ∨
    (x.el = .el1 ∧ (x.el2Enabled = true ∧ x.tid3 = 1#1) ∧ access c x = .trapped .el2 0x18) ∨
    (readAllowed x ∧ access c x = .returned c.V) := by
  unfold access readAllowed trapNumber
  cases hel : x.el with
  | el0 =>
    by_cases hi : c.featIDST = true
    · by_cases ht : x.el2Enabled = true ∧ x.tge = 1#1
      · simp [hi, ht]
      · have : (x.el2Enabled && x.tge == 1#1) = false := by simpa using ht
        simp [hi, this, ht]
    · simp [Bool.eq_false_iff.mpr hi]
  | el1 =>
    by_cases ht : x.el2Enabled = true ∧ x.tid3 = 1#1
    · simp [ht]
    · have : (x.el2Enabled && x.tid3 == 1#1) = false := by simpa using ht
      simp [this, ht]
  | el2 => simp
  | el3 => simp

/-- `completeRead` answers a next state exactly on success, and then it is the written and advanced state. -/
theorem completeRead_next {t : RegNumber} {o : AccessOutcome} {s s' : State} :
    completeRead t o s = .next s' ↔ ∃ v, o = .returned v ∧ s' = (s.writeX t v).advancePc := by
  cases o <;> simp [completeRead, raiseException, eq_comm]

/-- `completeRead` answers a fault exactly on the two exceptional outcomes. -/
theorem completeRead_fault {t : RegNumber} {o : AccessOutcome} {s : State} {f : Fault} :
    completeRead t o s = .fault f ↔
      (∃ target n, o = .trapped target n ∧ f = .systemAccessTrap target n) ∨ (o = .undefined ∧ f = .undefined) := by
  cases o <;> simp [completeRead, raiseException, eq_comm]

/-- No access outcome makes a read refuse. -/
theorem completeRead_ne_refused {t : RegNumber} {o : AccessOutcome} {s : State} {r : Refusal} :
    completeRead t o s ≠ .refused r := by
  cases o <;> simp [completeRead, raiseException]

/-- `exec`, by its two arms. -/
theorem exec_mrs (t : RegNumber) (s : State) :
    exec (.mrsIdAa64mmfr0El1 t) s = completeRead t (access s.cfg s.ctx) s := rfl

theorem exec_msr (t : RegNumber) (s : State) : exec (.msrIdAa64mmfr0El1 t) s = raiseException .undefined := rfl

/-- A step that answers a next state ran a decoded instruction in the state that received its context. -/
theorem step_next {s s' : State} (h : step s = .next s') :
    programPlaced s.text = true ∧
      ∃ w i, fetchWord s.text s.pc = some w ∧ decode w = .instr i ∧ exec i s.takeContext = .next s' := by
  unfold step at h
  split at h
  · next hp =>
    refine ⟨hp, ?_⟩
    split at h
    · simp at h
    · next w hw =>
      split at h
      · next i hi => exact ⟨w, i, hw, hi, h⟩
      · simp at h
  · simp at h

/-- A step that answers a fault ran a decoded instruction that raised it. -/
theorem step_fault {s : State} {f : Fault} (h : step s = .fault f) :
    programPlaced s.text = true ∧
      ∃ w i, fetchWord s.text s.pc = some w ∧ decode w = .instr i ∧ exec i s.takeContext = .fault f := by
  unfold step at h
  split at h
  · next hp =>
    refine ⟨hp, ?_⟩
    split at h
    · simp at h
    · next w hw =>
      split at h
      · next i hi => exact ⟨w, i, hw, hi, h⟩
      · simp at h
  · simp at h

/-- A word of the text is found where the offset from the base is a multiple of four. -/
theorem fetchWord_eq_some {p : Program} {pc : Word} {w : InstrWord} :
    fetchWord p pc = some w ↔ (pc - p.base).toNat % 4 = 0 ∧ p.words[(pc - p.base).toNat / 4]? = some w := by
  unfold fetchWord
  simp only
  split <;> simp_all

end Sys2Proof.Machine
end

