-- ==== Sys2Proof/Laws/Encoding.lean ====
section
/-! SUPPORT. Instruction words as numbers: concatenated fields as a sum, the row test as a range, the operand as a
remainder. -/

namespace Sys2Proof

/-- A concatenation as a number: the upper part counts `2^n` times. -/
theorem toNat_append_add {m n : Nat} (x : BitVec m) (y : BitVec n) :
    (x ++ y).toNat = x.toNat * 2 ^ n + y.toNat := by
  rw [BitVec.toNat_append, ← Nat.shiftLeft_add_eq_or_of_lt y.isLt, Nat.shiftLeft_eq]

/-- The system register move word as a number, field by field (R82). -/
theorem systemMoveWord_toNat (l : BitVec 1) (s : Selector) (t : RegNumber) :
    (systemMoveWord l s t).toNat =
      852 * 2 ^ 22 + l.toNat * 2 ^ 21 + s.op0.toNat * 2 ^ 19 + s.op1.toNat * 2 ^ 16 + s.crn.toNat * 2 ^ 12
        + s.crm.toNat * 2 ^ 8 + s.op2.toNat * 2 ^ 5 + t.toNat := by
  change (0b1101010100#10 ++ l ++ s.op0 ++ s.op1 ++ s.crn ++ s.crm ++ s.op2 ++ t).toNat = _
  simp only [toNat_append_add, BitVec.toNat_ofNat]
  omega

/-- The mask of both rows clears the five operand bits. -/
theorem and_rowMask_toNat (w : InstrWord) : (w &&& 0xFFFFFFE0#32).toNat = w.toNat / 32 * 32 := by
  have shifted : (w &&& 0xFFFFFFE0#32) = (w >>> 5) <<< 5 := by
    ext i hi
    by_cases h : i < 5
    · interval_cases i <;> simp
    · interval_cases i <;> simp_all
  rw [shifted]
  simp only [BitVec.toNat_shiftLeft, BitVec.toNat_ushiftRight, Nat.shiftRight_eq_div_pow, Nat.shiftLeft_eq]
  omega

/-- A word belongs to a row with the five-bit mask exactly when the bits above the operand are the pattern's. -/
theorem rowMatches_iff {r : InstrWord} {k : Nat} (hr : r.toNat = k * 32) (w : InstrWord) :
    rowMatches ⟨0xFFFFFFE0#32, r⟩ w = true ↔ w.toNat / 32 = k := by
  simp only [rowMatches, beq_iff_eq]
  rw [← BitVec.toNat_inj, and_rowMask_toNat, hr]
  omega

/-- The operand as a number (R83). -/
theorem regField_toNat (w : InstrWord) : (regField w).toNat = w.toNat % 32 := by
  simp [regField, BitVec.extractLsb'_toNat]

end Sys2Proof
end

