-- ==== Sys2Proof/Laws/Fields.lean ====
section
/-! SUPPORT. The lemmas of slicing and of legality that later proofs cite. -/

namespace Sys2Proof.Machine

/-- The number a slice stands for (R8). -/
theorem bits_toNat (v : Word) (lo width : Nat) : (bits v lo width).toNat = v.toNat / 2 ^ lo % 2 ^ width := by
  simp [bits, BitVec.extractLsb'_toNat, Nat.shiftRight_eq_div_pow]

/-- A summand of an assembled value, as a number (R122). -/
theorem place_toNat {n : Nat} (f : BitVec n) (lo : Nat) (h : n + lo ≤ 64) :
    (Mmfr0.place f lo).toNat = f.toNat * 2 ^ lo := by
  have hf := f.isLt
  have h64 : f.toNat < 2 ^ 64 := lt_of_lt_of_le hf (Nat.pow_le_pow_right (by omega) (by omega))
  have hlt : f.toNat * 2 ^ lo < 2 ^ 64 :=
    calc f.toNat * 2 ^ lo < 2 ^ n * 2 ^ lo := Nat.mul_lt_mul_of_pos_right hf (by positivity)
      _ = 2 ^ (n + lo) := (pow_add 2 n lo).symm
      _ ≤ 2 ^ 64 := Nat.pow_le_pow_right (by omega) h
  simp only [Mmfr0.place, BitVec.toNat_shiftLeft, BitVec.toNat_setWidth, Nat.mod_eq_of_lt h64,
    Nat.shiftLeft_eq, Nat.mod_eq_of_lt hlt]

/-- Every line of `WF` is in the list of lines. -/
theorem mem_allWfLines (l : WfLine) : l ∈ allWfLines := by cases l <;> decide

/-- A line is among the failing ones exactly when it does not hold. -/
theorem mem_failingLines {c : Cfg} {l : WfLine} : l ∈ failingLines c ↔ wfLineHolds c l = false := by
  simp [failingLines, mem_allWfLines]

/-- A configuration is legal exactly when every line holds. -/
theorem wf_iff {c : Cfg} : c.wf = true ↔ ∀ l, wfLineHolds c l = true := by
  simp [Cfg.wf, failingLines, mem_allWfLines]

/-- A legal configuration, line by line in the order of rule R38's table. -/
theorem wf_iff_lines {c : Cfg} : c.wf = true ↔
    wfLineHolds c .ecv = true ∧ wfLineHolds c .ecv86 = true ∧ wfLineHolds c .fgt = true ∧
    wfLineHolds c .fgt86 = true ∧ wfLineHolds c .res0 = true ∧ wfLineHolds c .exS = true ∧
    wfLineHolds c .tGran4_2 = true ∧ wfLineHolds c .tGran64_2 = true ∧ wfLineHolds c .tGran16_2 = true ∧
    wfLineHolds c .tGran4 = true ∧ wfLineHolds c .tGran64 = true ∧ wfLineHolds c .tGran16 = true ∧
    wfLineHolds c .bigEndEL0 = true ∧ wfLineHolds c .bigEndEL0Inv = true ∧ wfLineHolds c .snsMem = true ∧
    wfLineHolds c .snsMemEL3 = true ∧ wfLineHolds c .bigEnd = true ∧ wfLineHolds c .asidBits = true ∧
    wfLineHolds c .paRange = true := by
  rw [wf_iff]
  constructor
  · intro h
    refine ⟨?_, ?_, ?_, ?_, ?_, ?_, ?_, ?_, ?_, ?_, ?_, ?_, ?_, ?_, ?_, ?_, ?_, ?_, ?_⟩ <;> exact h _
  · rintro ⟨h1, h2, h3, h4, h5, h6, h7, h8, h9, h10, h11, h12, h13, h14, h15, h16, h17, h18, h19⟩ l
    cases l <;> assumption

/-- A field value compared with a table value, as numbers (R121: equality only). -/
theorem nibble_eq_iff {x : Nibble} {k : Nat} (h : k < 16) : x = BitVec.ofNat 4 k ↔ x.toNat = k := by
  rw [← BitVec.toNat_inj, BitVec.toNat_ofNat, Nat.mod_eq_of_lt h]

end Sys2Proof.Machine
end

