-- ==== Sys2Proof/Laws/PerInstr.lean ====
section
/-! SUPPORT. Statements made per instruction. Family EncodingRow: the word of an instruction belongs to that
instruction's row of the opcode table and to no other, and carries its register number (R82, R85, R88). -/

namespace Sys2Proof.Laws.EncodingRow

/-- The row of the opcode table an instruction stands for. -/
def row : Instr → OpcodeRow
  | .mrsIdAa64mmfr0El1 _ => mrsRow
  | .msrIdAa64mmfr0El1 _ => msrRow

/-- The other row. -/
def otherRow : Instr → OpcodeRow
  | .mrsIdAa64mmfr0El1 _ => msrRow
  | .msrIdAa64mmfr0El1 _ => mrsRow

/-- The operand of an instruction. -/
def operand : Instr → RegNumber
  | .mrsIdAa64mmfr0El1 t => t
  | .msrIdAa64mmfr0El1 t => t

/-- The word of `i` is in `i`'s row, not in the other row, and holds `i`'s operand. -/
def Statement (i : Instr) : Prop :=
  rowMatches (row i) (encode i) = true ∧ rowMatches (otherRow i) (encode i) = false ∧ regField (encode i) = operand i

theorem mrsIdAa64mmfr0El1 (t : RegNumber) : Statement (.mrsIdAa64mmfr0El1 t) := by
  have all : ∀ u : RegNumber,
      rowMatches mrsRow (systemMoveWord 1#1 selector u) = true ∧
      rowMatches msrRow (systemMoveWord 1#1 selector u) = false ∧
      regField (systemMoveWord 1#1 selector u) = u := by decide
  exact all t

theorem msrIdAa64mmfr0El1 (t : RegNumber) : Statement (.msrIdAa64mmfr0El1 t) := by
  have all : ∀ u : RegNumber,
      rowMatches msrRow (systemMoveWord 0#1 selector u) = true ∧
      rowMatches mrsRow (systemMoveWord 0#1 selector u) = false ∧
      regField (systemMoveWord 0#1 selector u) = u := by decide
  exact all t

end Sys2Proof.Laws.EncodingRow
end

