-- ==== Sys2Proof/Laws/Run.lean ====
section
/-! SUPPORT. Runs of the machine (R186), peeled one step at a time, and the induction over a run packaged once. -/

namespace Sys2Proof.Machine

/-- A run of no steps completes where it stands. -/
theorem run_zero {s s' : State} : core.run 0 s = .next s' ↔ s' = s := by
  change (Host.Outcome.next s : Host.Outcome State Fault Refusal) = .next s' ↔ s' = s
  rw [Host.Outcome.next.injEq]
  exact eq_comm

/-- A completed run of `n + 1` steps is a completed step and a completed run of `n` steps. -/
theorem run_succ {n : Nat} {s s' : State} :
    core.run (n + 1) s = .next s' ↔ ∃ s₁, step s = .next s₁ ∧ core.run n s₁ = .next s' := by
  have peel : ∀ o : Host.Outcome State Fault Refusal, core.step s = o →
      (core.run (n + 1) s = .next s' ↔ ∃ s₁, o = .next s₁ ∧ core.run n s₁ = .next s') := by
    intro o h
    simp only [Host.Core.run, h]
    cases o <;> simp
  exact peel (step s) rfl

/-- What holds of a state and is kept by every completed step holds after every completed run. -/
theorem run_induction {P : State → Prop} (keep : ∀ s s', P s → step s = .next s' → P s') :
    ∀ (n : Nat) (s s' : State), P s → core.run n s = .next s' → P s' := by
  intro n
  induction n with
  | zero =>
    intro s s' hs h
    rw [run_zero] at h
    exact h ▸ hs
  | succ n ih =>
    intro s s' hs h
    obtain ⟨s₁, h₁, h₂⟩ := run_succ.mp h
    exact ih s₁ s' (keep s s₁ hs h₁) h₂

end Sys2Proof.Machine
end

