-- ==== Sys2Proof/Machine/Flags.lean ====
section
/-! DEFINITION. Flags and condition codes: there are none. "The access pseudocode assigns to no flag, condition code or
`PSTATE` field, on any path" (R45), State holds no flag, and so this file defines no flag computation. -/
end

