-- ==== Sys2Proof/Tests/Slice0.lean ====
section
/-! SUPPORT. The model's own tests. Expected results are the spec's: 95_test_vectors.md T1 to T7 and P1 to P6, the worked
examples of 40_mrs_read.md, and words written out from the field table of R82. The last part shows, for every statement
with hypotheses, a state or a configuration that meets them. -/

namespace Sys2Proof.Tests

open Sys2Proof.Machine Sys2Proof.Machine.Mmfr0

/-! ### Test data (95_test_vectors.md T1, T2) -/

/-- A configuration with the value `v` and every Boolean member false. -/
def plain (v : Word) : Cfg := ⟨v, false, false, false, false, false, false⟩

/-- V_B on a PE with EL2 and EL3 (T2 row 7). -/
def cfgB (idst : Bool) : Cfg := ⟨0x0000000000101125#64, true, true, idst, false, false, false⟩

/-- V_C on a PE with every member true (T2 row 8). -/
def cfgC : Cfg := ⟨0x2100132310201126#64, true, true, true, true, true, true⟩

/-- A state that executes the words `ws`, placed at 0x1000, in context `x`. -/
def running (c : Cfg) (x : Ctx) (ws : List InstrWord) : State where
  cfg := c
  ctx := x
  arriving := []
  x := Vector.replicate 31 0#64
  pc := 0x1000#64
  text := { base := 0x1000#64, words := ws }

def atEL0 (e2 : Bool) (tge : BitVec 1) : Ctx := ⟨.el0, e2, tge, 0#1⟩
def atEL1 (e2 : Bool) (tid3 : BitVec 1) : Ctx := ⟨.el1, e2, 0#1, tid3⟩
def atEL2 : Ctx := ⟨.el2, true, 1#1, 1#1⟩
def atEL3 : Ctx := ⟨.el3, false, 0#1, 0#1⟩

/-! ### Decoding: words written out bit by bit from R82 (read) and R85 (write) -/

/-- 0xD5380709 of T6, field by field: [31:22], L, bit 20, o0, op1, CRn, CRm, op2, Rt. -/
theorem test_decode_mrs_x9 :
    decode 0b1101010100_1_1_1_000_0000_0111_000_01001#32 = .instr (.mrsIdAa64mmfr0El1 9#5) := by decide

theorem test_decode_msr_x5 :
    decode 0b1101010100_0_1_1_000_0000_0111_000_00101#32 = .instr (.msrIdAa64mmfr0El1 5#5) := by decide

theorem test_encode_mrs_x30 : encode (.mrsIdAa64mmfr0El1 30#5) = 0xD538071E#32 := by decide

theorem test_encode_msr_x0 : encode (.msrIdAa64mmfr0El1 0#5) = 0xD5180700#32 := by decide

/-- The bytes of T6, lowest address first. -/
theorem test_decode_bytes_mrs_x1 :
    decodeBytes [0x01#8, 0x07#8, 0x38#8, 0xD5#8] = .word (.instr (.mrsIdAa64mmfr0El1 1#5)) [] := by decide

theorem test_table_word_msr : decodeTableWord 32 0xD5180705 = some (.msrIdAa64mmfr0El1 5#5) := by decide

theorem test_table_word_other_register : decodeTableWord 32 0xD5380720 = none := by decide

/-! ### One step of each instruction -/

/-- The worked example of R100: V_B at EL1, EL2 not enabled, t = 3. -/
theorem test_read_x3_at_EL1 :
    ∃ s', step (running (cfgB false) (atEL1 false 0#1) [0xD5380703#32]) = .next s' ∧
      s'.readX 3 = 0x0000000000101125#64 ∧ s'.readX 2 = 0#64 ∧ s'.pc = 0x1004#64 := ⟨_, rfl, by decide⟩

/-- P3: the hypervisor trap at EL1. -/
theorem test_read_trapped_at_EL1 :
    step (running (cfgB false) (atEL1 true 1#1) [0xD5380702#32]) = .fault (.systemAccessTrap .el2 0x18) := rfl

/-- P5: the write form at EL3. -/
theorem test_write_form_at_EL3 :
    step (running (cfgB false) atEL3 [0xD5180705#32]) = .fault .undefined := rfl

/-- P6: a word of another register. -/
theorem test_other_register_refused :
    step (running (plain 0x1122#64) (atEL1 false 0#1) [0xD5380720#32])
      = .refused (.notThisHardware 0xD5380720#32) := rfl

/-- A word the host gives runs as the first instruction after reset. -/
theorem test_reset_runs_the_given_word :
    ∃ s', step (State.reset.withFetchWord 32 0xD5380700) = .next s' ∧ s'.readX 0 = Config.pe.cfg.V :=
  ⟨_, rfl, rfl⟩

/-- A context that arrives is the one the step uses (R181): EL2 replaces EL0. -/
theorem test_arriving_context_is_used :
    ∃ s', step { running (cfgB false) (atEL0 false 0#1) [0xD5380701#32] with arriving := [atEL2] } = .next s' ∧
      s'.ctx = atEL2 ∧ s'.readX 1 = 0x101125#64 := ⟨_, rfl, by decide⟩

/-! ### Fields and queries (T1, T3) -/

/-- V_S has a different digit in every position (T1). -/
theorem test_cut_V_S : cut 0xFEDCBA9876543210#64 =
    ⟨0xF#4, 0xE#4, 0xDC#8, 0xB#4, 0xA#4, 0x9#4, 0x8#4, 0x7#4, 0x6#4, 0x5#4, 0x4#4, 0x3#4, 0x2#4, 0x1#4, 0x0#4⟩ := by
  decide

theorem test_assemble_V_C : assemble (cut 0x2100132310201126#64) = 0x2100132310201126#64 := by decide

/-- T3, row V_C with both features. -/
theorem test_granules_V_C :
    [granuleReport cfgC .stage1 .kb4, granuleReport cfgC .stage1 .kb64, granuleReport cfgC .stage1 .kb16,
      granuleReport cfgC .stage2 .kb4, granuleReport cfgC .stage2 .kb64, granuleReport cfgC .stage2 .kb16]
      = [.supported52, .supported, .supported52, .supported52, .supported, .supported52] := by decide

/-- T3, row V_H: 4KB supported at stage 1 and not at stage 2. -/
theorem test_granules_V_H :
    granuleReport (plain 0x0000012200101122#64) .stage1 .kb4 = .supported ∧
    granuleReport (plain 0x0000012200101122#64) .stage2 .kb4 = .notSupported := by decide

/-- T3, row V_J with FEAT_LPA2: the 52-bit value inherited through a zero `_2` field. -/
theorem test_stage2_inherits_52_V_J : stage2Gran4 0x0000000010001122#64 true = .supported52 := by decide

/-- T3, row V_E: E0E configurable through BigEndEL0 alone. -/
theorem test_e0e_V_E :
    eeConfigurable 0x00000000FF110000#64 = .no ∧ e0eConfigurable 0x00000000FF110000#64 = .yes := by decide

/-- R124: with EL2 alone FGT brings the six registers, the traps of each, and MDCR_EL2.TDCC; with neither level nothing. -/
theorem test_fgt_brings_registers_and_their_traps :
    (fgtBrings true false (decodeFGT 1#4)).length = 13 ∧ .trapsOf .hfgwtrEL2 ∈ fgtBrings true false (decodeFGT 1#4) ∧
    .scrEL3_FGTEn ∉ fgtBrings true false (decodeFGT 1#4) ∧ fgtBrings false false (decodeFGT 1#4) = [] := by decide

/-- T7: t = 9. -/
theorem test_syndrome_x9 : esrOutline 9#5 = 0x6230012F#32 := by decide

/-! ### WellFormed smoke: for each check an ill-formed term that it refuses. T2's rows give the expected lines; where T2
has none, one field of a legal value is changed to a value its table does not list. -/

theorem smoke_T2_row1 : (plain 0#64).wf = true := by decide
theorem smoke_T2_row8 : cfgC.wf = true := by decide
theorem smoke_ecv_T2_row20 : failingLines (plain 0x3000000000001122#64) = [.ecv] := by decide
theorem smoke_ecv86_fgt86_T2_row5 :
    failingLines { plain 0x1122#64 with archAtLeast8_6 := true } = [.ecv86, .fgt86] := by decide
theorem smoke_fgt : failingLines (plain 0x0200000000001122#64) = [.fgt] := by decide
theorem smoke_res0_T2_row16 : failingLines (plain 0x0001000000001122#64) = [.res0] := by decide
theorem smoke_exS : failingLines (plain 0x0000200000001122#64) = [.exS] := by decide
theorem smoke_52bit_T2_row9 : failingLines { cfgC with featLPA := false, featLPA2 := false } =
    [.tGran4_2, .tGran16_2, .tGran4, .tGran16, .paRange] := by decide
theorem smoke_tGran64_2 : failingLines (plain 0x0000003000001122#64) = [.tGran64_2] := by decide
theorem smoke_tGran64 : failingLines (plain 0x0000000001001122#64) = [.tGran64] := by decide
theorem smoke_tGran4_T2_row18 : failingLines (plain 0x0000000010001122#64) = [.tGran4] := by decide
theorem smoke_bigEndEL0 : failingLines (plain 0x0000000000020000#64) = [.bigEndEL0] := by decide
theorem smoke_bigEndEL0Inv_T2_row12 : failingLines (plain 0x0000000000010100#64) = [.bigEndEL0Inv] := by decide
theorem smoke_snsMem : failingLines (plain 0x0000000000002022#64) = [.snsMem] := by decide
theorem smoke_snsMemEL3_T2_row2 : failingLines { plain 0#64 with haveEL3 := true } = [.snsMemEL3] := by decide
theorem smoke_bigEnd : failingLines (plain 0x0000000000001222#64) = [.bigEnd] := by decide
theorem smoke_asidBits_paRange_T2_row15 : failingLines (plain 0x17#64) = [.asidBits, .paRange] := by decide
theorem smoke_ctx_el2Enabled : Ctx.wf (plain 0#64) ⟨.el1, true, 0#1, 0#1⟩ = false := by decide
theorem smoke_ctx_atEL2 : Ctx.wf (plain 0#64) ⟨.el2, false, 0#1, 0#1⟩ = false := by decide
theorem smoke_ctx_atEL3 : Ctx.wf (plain 0#64) ⟨.el3, false, 0#1, 0#1⟩ = false := by decide
theorem smoke_program_wraps :
    Program.wf ⟨0xFFFFFFFFFFFFFFFC#64, [0#32]⟩ = false ∧ Program.wf ⟨0xFFFFFFFFFFFFFFF8#64, [0#32]⟩ = true := by decide

/-! ### Witnesses: states and configurations that meet the hypotheses of the statements -/

/-- The reads' states: EL0 with and without FEAT_IDST and TGE, EL1 with each control, EL2 and EL3. -/
def readAt (idst : Bool) (x : Ctx) : State := running (cfgB idst) x [0xD5380704#32]

theorem witness_ReadAtEL0IsRoutedByTGE :
    ((readAt true (atEL0 true 1#1)).ctx.el = .el0 ∧ (readAt true (atEL0 true 1#1)).cfg.featIDST = true ∧
      ((readAt true (atEL0 true 1#1)).ctx.el2Enabled = true ∧ (readAt true (atEL0 true 1#1)).ctx.tge = 1#1)) ∧
    ((readAt true (atEL0 false 1#1)).ctx.el = .el0 ∧ (readAt true (atEL0 false 1#1)).cfg.featIDST = true ∧
      ¬((readAt true (atEL0 false 1#1)).ctx.el2Enabled = true ∧ (readAt true (atEL0 false 1#1)).ctx.tge = 1#1)) ∧
    ((readAt false (atEL0 true 1#1)).ctx.el = .el0 ∧ (readAt false (atEL0 true 1#1)).cfg.featIDST = false) := by decide

theorem witness_ReadAtEL1IsTrappedByTID3 :
    ((readAt true (atEL1 true 1#1)).ctx.el = .el1 ∧
      ((readAt true (atEL1 true 1#1)).ctx.el2Enabled = true ∧ (readAt true (atEL1 true 1#1)).ctx.tid3 = 1#1)) ∧
    ((readAt true (atEL1 true 0#1)).ctx.el = .el1 ∧ (readAt true (atEL1 true 0#1)).ctx.tid3 = 0#1) ∧
    ((readAt true (atEL1 false 1#1)).ctx.el = .el1 ∧ (readAt true (atEL1 false 1#1)).ctx.el2Enabled = false) := by
  decide

/-- EL1 with TID3 clear, EL1 with EL2 not enabled, EL2 with both HCR_EL2 bits set, EL3. -/
theorem witness_ReadCompletesAndItsFrame :
    readAllowed (readAt false (atEL1 true 0#1)).ctx ∧ readAllowed (readAt false (atEL1 false 1#1)).ctx ∧
    readAllowed (readAt false atEL2).ctx ∧ readAllowed (readAt false atEL3).ctx := by
  unfold readAllowed; decide

/-- The same four contexts meet the hypothesis of the read into number 31. -/
theorem witness_ReadIntoNumber31WritesNothing : readAllowed (running cfgC atEL2 [0xD538071F#32]).ctx := by
  unfold readAllowed; decide

theorem witness_ControlBitsNotConsulted :
    (atEL0 true 1#1).el = .el0 ∧ (atEL1 true 1#1).el = .el1 ∧ atEL2.el = .el2 ∧ atEL3.el = .el3 ∧
    (atEL1 false 1#1).el2Enabled = false := by decide

/-- A trap to EL1 whose retry succeeds, and a trap to EL2. -/
theorem witness_RetryAtTrapTargetSucceeds :
    exec (.mrsIdAa64mmfr0El1 4#5) (readAt true (atEL0 false 0#1)) = .fault (.systemAccessTrap .el1 0x18) ∧
    exec (.mrsIdAa64mmfr0El1 4#5) (readAt true (atEL1 true 1#1)) = .fault (.systemAccessTrap .el2 0x18) := ⟨rfl, rfl⟩

/-- Two states with one context and one answer of FEAT_IDST, and different values. -/
theorem witness_OutcomeDependsOnContextAndIDSTAlone :
    (readAt true atEL2).ctx = (running cfgC atEL2 []).ctx ∧
    (readAt true atEL2).cfg.featIDST = (running cfgC atEL2 []).cfg.featIDST ∧
    (readAt true atEL2).cfg.V ≠ (running cfgC atEL2 []).cfg.V := by decide

theorem witness_EL0LearnsNothingOfTheRegister :
    (readAt true (atEL0 true 1#1)).takeContext.ctx.el = .el0 ∧
    { readAt true atEL3 with arriving := [atEL0 false 0#1] }.takeContext.ctx.el = .el0 := by decide

theorem witness_StepRunsTheDecodedInstruction :
    programPlaced (readAt true atEL3).text = true ∧
    fetchWord (readAt true atEL3).text (readAt true atEL3).pc = some 0xD5380704#32 ∧
    decode 0xD5380704#32 = .instr (.mrsIdAa64mmfr0El1 4#5) := by decide

/-- A placed text with its first word, its last word and its end. The statement's two answers at its edges: the last word,
the end, and an address that is no word's. -/
theorem witness_FetchFindsEachWord :
    programPlaced ⟨0xFFFFFFFFFFFFFFF4#64, [1#32, 2#32]⟩ = true ∧
    (∀ k ∈ [0, 1, 2], k ≤ ([1#32, 2#32] : List InstrWord).length) ∧
    fetchWord ⟨0xFFFFFFFFFFFFFFF4#64, [1#32, 2#32]⟩ 0xFFFFFFFFFFFFFFF8#64 = some 2#32 ∧
    fetchWord ⟨0xFFFFFFFFFFFFFFF4#64, [1#32, 2#32]⟩ 0xFFFFFFFFFFFFFFFC#64 = none ∧
    fetchWord ⟨0xFFFFFFFFFFFFFFF4#64, [1#32, 2#32]⟩ 0xFFFFFFFFFFFFFFF6#64 = none ∧
    fetchWord ⟨0xFFFFFFFFFFFFFFF4#64, [1#32, 2#32]⟩ 0xFFFFFFFFFFFFFFF0#64 = none := by decide

/-- The highest `pc` the statement admits, and the word of each row. -/
theorem witness_WithFetchWordIsRunNext :
    (({ readAt true atEL3 with pc := 0xFFFFFFFFFFFFFFFB#64 } : State).pc.toNat + 4 < 2 ^ 64) ∧
    decodeTableWord 32 0xD5380700 = some (.mrsIdAa64mmfr0El1 0#5) ∧
    decodeTableWord 32 0xD5180700 = some (.msrIdAa64mmfr0El1 0#5) := by decide

theorem witness_CompletedStepIsAnAllowedRead : ∃ s', step (readAt true atEL3) = .next s' := ⟨_, rfl⟩

theorem inv_readAt_EL0 : Inv (readAt true (atEL0 true 1#1)) where
  legal := by decide
  context := by decide
  arrivals := by decide
  placed := by decide
  pcInText := ⟨0, by unfold atWord; decide⟩

theorem inv_readAt_EL3 : Inv (readAt true atEL3) where
  legal := by decide
  context := by decide
  arrivals := by decide
  placed := by decide
  pcInText := ⟨0, by unfold atWord; decide⟩

theorem witness_TrapsGoUpwardsToImplementedLevels :
    Inv (readAt true (atEL0 true 1#1)) ∧
    step (readAt true (atEL0 true 1#1)) = .fault (.systemAccessTrap .el2 0x18) := ⟨inv_readAt_EL0, rfl⟩

theorem witness_InvariantHoldsAtReset : cfgC.wf = true := by decide

theorem witness_StepKeepsTheInvariant : Inv (readAt true atEL3) ∧ ∃ s', step (readAt true atEL3) = .next s' :=
  ⟨inv_readAt_EL3, _, rfl⟩

/-- P2: three reads, one of them discarded, the third at EL3. -/
def threeReads : State :=
  { running cfgC atEL2 [0xD5380701#32, 0xD538071F#32, 0xD538071E#32] with arriving := [atEL2, atEL2, atEL3] }

theorem witness_RunOfAllowedReadsCompletes :
    programPlaced threeReads.text = true ∧ threeReads.pc = threeReads.text.base ∧
    (∀ w ∈ threeReads.text.words, ∃ t, decode w = .instr (.mrsIdAa64mmfr0El1 t)) ∧
    (threeReads.arriving = [] → readAllowed threeReads.ctx) ∧ (∀ c ∈ threeReads.arriving, readAllowed c) := by
  refine ⟨by decide, by decide, ?_, nofun, by unfold readAllowed; decide⟩
  intro w hw
  simp only [threeReads, running, List.mem_cons, List.not_mem_nil, or_false] at hw
  rcases hw with rfl | rfl | rfl
  · exact ⟨1#5, by decide⟩
  · exact ⟨31#5, by decide⟩
  · exact ⟨30#5, by decide⟩

theorem witness_CompletedRunPassedOnlyReads :
    threeReads.pc = threeReads.text.base ∧ ∃ s', core.run 3 threeReads = .next s' := ⟨rfl, _, rfl⟩

theorem witness_RegisterIsConstantOverRuns : ∃ s', core.run 2 threeReads = .next s' := ⟨_, rfl⟩

/-- A legal and an illegal configuration. -/
theorem witness_IllegalConfigurationsRefusedByName : cfgC.wf = true ∧ (plain 0x17#64).wf = false := by decide

/-- The longest text that fits below the top, and one word more. -/
theorem witness_ProgramsAcrossTheTopRefused :
    (0xFFFFFFFFFFFFFFF7#64 : Word).toNat + 4 * ([0#32, 0#32] : List InstrWord).length < 2 ^ 64 ∧
    2 ^ 64 ≤ (0xFFFFFFFFFFFFFFF8#64 : Word).toNat + 4 * ([0#32, 0#32] : List InstrWord).length := by decide

/-- ECV: each row of the table, the first reserved value and the last, and a legal Armv8.6 configuration. -/
theorem witness_EcvFieldTable :
    slice 0x0FFFFFFFFFFFFFFF#64 63 60 = 0b0000 ∧ slice 0x1000000000000000#64 63 60 = 0b0001 ∧
    slice 0x2FFFFFFFFFFFFFFF#64 63 60 = 0b0010 ∧ 0b0010 < slice 0x3000000000000000#64 63 60 ∧
    0b0010 < slice 0xFFFFFFFFFFFFFFFF#64 63 60 ∧ cfgC.wf = true ∧ cfgC.archAtLeast8_6 = true := by decide

theorem witness_FgtFieldTable :
    slice 0xF0FFFFFFFFFFFFFF#64 59 56 = 0b0000 ∧ slice 0x0100000000000000#64 59 56 = 0b0001 ∧
    0b0001 < slice 0x0200000000000000#64 59 56 ∧ 0b0001 < slice 0x0F00000000000000#64 59 56 ∧
    cfgC.wf = true ∧ cfgC.archAtLeast8_6 = true := by decide

theorem witness_ReservedBitsReadAsZero :
    (readAt true atEL3).cfg.wf = true ∧ (∃ s', exec (.mrsIdAa64mmfr0El1 4#5) (readAt true atEL3) = .next s') ∧
    (4 : Fin 31).val = (4#5).toNat := ⟨by decide, ⟨_, rfl⟩, rfl⟩

theorem witness_ExSFieldTable :
    slice 0xFFFF0FFFFFFFFFFF#64 47 44 = 0b0000 ∧ slice 0x0000100000000000#64 47 44 = 0b0001 ∧
    0b0001 < slice 0x0000200000000000#64 47 44 ∧ 0b0001 < slice 0x0000F00000000000#64 47 44 ∧ cfgC.wf = true := by decide

/-- TGran64_2 and TGran64: each row of each table and reserved values beside them. -/
theorem witness_Granule64KBFieldTables :
    slice 0xFFFFFF0FFFFFFFFF#64 39 36 = 0b0000 ∧ slice 0x0000001000000000#64 39 36 = 0b0001 ∧
    slice 0x0000002000000000#64 39 36 = 0b0010 ∧ 0b0010 < slice 0x0000003000000000#64 39 36 ∧
    slice 0xFFFFFFFFF0FFFFFF#64 27 24 = 0b0000 ∧ slice 0x000000000F000000#64 27 24 = 0b1111 ∧
    (slice 0x0000000001000000#64 27 24 ≠ 0b0000 ∧ slice 0x000000000E000000#64 27 24 ≠ 0b1111) ∧ cfgC.wf = true := by
  decide

/-- A zero and a non-zero `_2` field of each granule, another value with the same `_2` field, and every row's value. -/
theorem witness_Stage2FollowsStage1OnlyWhenZero :
    (slice (plain 0x10001122#64).V 43 40 = 0 ∧ slice (plain 0x10001122#64).V 39 36 = 0 ∧
      slice (plain 0x10001122#64).V 35 32 = 0) ∧
    (slice (plain 0x0000012200101122#64).V 43 40 ≠ 0 ∧
      slice 0x00000122F0001122#64 43 40 = slice (plain 0x0000012200101122#64).V 43 40) ∧
    (slice (plain 0x0000012200101122#64).V 39 36 ≠ 0 ∧
      slice 0x000001220F001122#64 39 36 = slice (plain 0x0000012200101122#64).V 39 36) ∧
    (slice (plain 0x0000012200101122#64).V 35 32 ≠ 0 ∧
      slice 0x0000012200001122#64 35 32 = slice (plain 0x0000012200101122#64).V 35 32) ∧
    (slice 0x0000012100000000#64 43 40 = 1 ∧ slice 0x0000012100000000#64 39 36 = 2 ∧
      slice 0x0000012100000000#64 35 32 = 1) ∧
    (slice 0x0000021200000000#64 43 40 = 2 ∧ slice 0x0000021200000000#64 39 36 = 1 ∧
      slice 0x0000021200000000#64 35 32 = 2) ∧
    (slice 0x0000033300000000#64 43 40 = 3 ∧ slice 0x0000033300000000#64 39 36 = 3 ∧
      slice 0x0000033300000000#64 35 32 = 3) := by decide

theorem witness_BigEndFieldTables :
    (slice 0#64 11 8 = 0b0000 ∧ slice 0#64 19 16 = 0b0000) ∧
    (slice 0x10000#64 11 8 = 0b0000 ∧ slice 0x10000#64 19 16 = 0b0001) ∧
    (slice 0x20000#64 11 8 = 0b0000 ∧ 0b0001 < slice 0x20000#64 19 16) ∧ slice 0x100#64 11 8 = 0b0001 ∧
    0b0001 < slice 0x200#64 11 8 ∧ (cfgC.wf = true ∧ slice cfgC.V 11 8 ≠ 0b0000) := by decide

theorem witness_SNSMemFieldTable :
    slice 0x0FFF#64 15 12 = 0b0000 ∧ slice 0x1000#64 15 12 = 0b0001 ∧ 0b0001 < slice 0x2000#64 15 12 ∧
    (cfgC.wf = true ∧ cfgC.haveEL3 = true) := by decide

theorem witness_ASIDBitsFieldTable :
    slice 0x0F#64 7 4 = 0b0000 ∧ slice 0x20#64 7 4 = 0b0010 ∧
    (slice 0x10#64 7 4 ≠ 0b0000 ∧ slice 0x10#64 7 4 ≠ 0b0010) ∧ cfgC.wf = true := by decide

/-- PARange: every row, and the reserved values 0b0111 and 0b1111. -/
theorem witness_PARangeFieldTable :
    slice 0xF0#64 3 0 = 0b0000 ∧ slice 1#64 3 0 = 0b0001 ∧ slice 2#64 3 0 = 0b0010 ∧ slice 3#64 3 0 = 0b0011 ∧
    slice 4#64 3 0 = 0b0100 ∧ slice 5#64 3 0 = 0b0101 ∧ slice 6#64 3 0 = 0b0110 ∧ 0b0110 < slice 7#64 3 0 ∧
    0b0110 < slice 15#64 3 0 ∧ (cfgC.wf = true ∧ slice cfgC.V 3 0 = 0b0110) := by decide

/-- No decoder answers Reserved and yet WF_BigEndEL0_inv fails; and a stray BigEndEL0 that WF_BigEndEL0 alone sees. -/
theorem witness_LinesTheDecodersDoNotSee :
    (someAnswerReserved (plain 0x10100#64) = false ∧ slice (plain 0x10100#64).V 55 48 = 0 ∧
      wfLineHolds (plain 0x10100#64) .bigEndEL0Inv = false) ∧
    (someAnswerReserved (plain 0x20100#64) = false ∧ slice (plain 0x20100#64).V 55 48 = 0 ∧
      wfLineHolds (plain 0x20100#64) .bigEndEL0 = false) := by decide

/-- A legal configuration with every 52-bit value, one with none, and one with 4KB supported at stage 1 only. -/
theorem witness_LegalValuesAnswerEveryQuery :
    cfgC.wf = true ∧ (plain 0xFF110000#64).wf = true ∧ (plain 0x0000012200101122#64).wf = true := by decide

/-- Contexts on both sides of each of the three conditions. -/
theorem witness_ContextConsistencyIsThreeConditions :
    Ctx.wf cfgC atEL2 = true ∧ Ctx.wf cfgC atEL3 = true ∧ Ctx.wf (plain 0#64) (atEL1 false 1#1) = true ∧
    Ctx.wf (plain 0#64) (atEL1 true 0#1) = false ∧ Ctx.wf (plain 0#64) ⟨.el2, false, 0#1, 0#1⟩ = false ∧
    Ctx.wf (plain 0#64) atEL3 = false := by decide

theorem witness_WhatBootCodeMayConfigure :
    (cfgC.wf = true ∧ granuleAvailable cfgC .stage2 .kb4 = true) ∧
    ((plain 0xFF110000#64).wf = true ∧ granuleAvailable (plain 0xFF110000#64) .stage1 .kb4 = false) := by decide

end Sys2Proof.Tests
end

/-! ### The fields (R120) as slices (R8), and the lines of `WF(cfg)` (R38) on them -/

namespace Sys2Proof.Machine

open Mmfr0

@[simp] theorem toNat_ecv (v : Word) : (ecv v).toNat = slice v 63 60 := bits_toNat v 60 4
@[simp] theorem toNat_fgt (v : Word) : (fgt v).toNat = slice v 59 56 := bits_toNat v 56 4
@[simp] theorem toNat_res0_55_48 (v : Word) : (res0_55_48 v).toNat = slice v 55 48 := bits_toNat v 48 8
@[simp] theorem toNat_exS (v : Word) : (exS v).toNat = slice v 47 44 := bits_toNat v 44 4
@[simp] theorem toNat_tGran4_2 (v : Word) : (tGran4_2 v).toNat = slice v 43 40 := bits_toNat v 40 4
@[simp] theorem toNat_tGran64_2 (v : Word) : (tGran64_2 v).toNat = slice v 39 36 := bits_toNat v 36 4
@[simp] theorem toNat_tGran16_2 (v : Word) : (tGran16_2 v).toNat = slice v 35 32 := bits_toNat v 32 4
@[simp] theorem toNat_tGran4 (v : Word) : (tGran4 v).toNat = slice v 31 28 := bits_toNat v 28 4
@[simp] theorem toNat_tGran64 (v : Word) : (tGran64 v).toNat = slice v 27 24 := bits_toNat v 24 4
@[simp] theorem toNat_tGran16 (v : Word) : (tGran16 v).toNat = slice v 23 20 := bits_toNat v 20 4
@[simp] theorem toNat_bigEndEL0 (v : Word) : (bigEndEL0 v).toNat = slice v 19 16 := bits_toNat v 16 4
@[simp] theorem toNat_snsMem (v : Word) : (snsMem v).toNat = slice v 15 12 := bits_toNat v 12 4
@[simp] theorem toNat_bigEnd (v : Word) : (bigEnd v).toNat = slice v 11 8 := bits_toNat v 8 4
@[simp] theorem toNat_asidBits (v : Word) : (asidBits v).toNat = slice v 7 4 := bits_toNat v 4 4
@[simp] theorem toNat_paRange (v : Word) : (paRange v).toNat = slice v 3 0 := bits_toNat v 0 4

section Lines

variable {x : Nibble} {c : Cfg}

theorem nibble_le_one_iff : (x == 0b0000#4 || x == 0b0001#4) = true ↔ x.toNat ≤ 1 := by
  simp only [Bool.or_eq_true, beq_iff_eq, nibble_eq_iff, Nat.reduceLT]
  omega

theorem nibble_le_two_iff : (x == 0b0000#4 || x == 0b0001#4 || x == 0b0010#4) = true ↔ x.toNat ≤ 2 := by
  rw [Bool.or_eq_true, nibble_le_one_iff, beq_iff_eq, nibble_eq_iff (by decide)]
  omega

theorem wfLineHolds_ecv : wfLineHolds c .ecv = true ↔ slice c.V 63 60 ≤ 2 :=
  toNat_ecv c.V ▸ nibble_le_two_iff

theorem wfLineHolds_fgt : wfLineHolds c .fgt = true ↔ slice c.V 59 56 ≤ 1 :=
  toNat_fgt c.V ▸ nibble_le_one_iff

theorem wfLineHolds_exS : wfLineHolds c .exS = true ↔ slice c.V 47 44 ≤ 1 :=
  toNat_exS c.V ▸ nibble_le_one_iff

theorem wfLineHolds_tGran64_2 : wfLineHolds c .tGran64_2 = true ↔ slice c.V 39 36 ≤ 2 :=
  toNat_tGran64_2 c.V ▸ nibble_le_two_iff

theorem wfLineHolds_bigEndEL0 : wfLineHolds c .bigEndEL0 = true ↔ slice c.V 19 16 ≤ 1 :=
  toNat_bigEndEL0 c.V ▸ nibble_le_one_iff

theorem wfLineHolds_bigEnd : wfLineHolds c .bigEnd = true ↔ slice c.V 11 8 ≤ 1 :=
  toNat_bigEnd c.V ▸ nibble_le_one_iff

theorem wfLineHolds_ecv86 : wfLineHolds c .ecv86 = true ↔
    (c.archAtLeast8_6 = true → slice c.V 63 60 = 1 ∨ slice c.V 63 60 = 2) := by
  cases h : c.archAtLeast8_6 <;> simp [wfLineHolds, h, nibble_eq_iff]

theorem wfLineHolds_fgt86 : wfLineHolds c .fgt86 = true ↔
    (c.archAtLeast8_6 = true → slice c.V 59 56 = 1) := by
  cases h : c.archAtLeast8_6 <;> simp [wfLineHolds, h, nibble_eq_iff]

theorem wfLineHolds_tGran64 :
    wfLineHolds c .tGran64 = true ↔ slice c.V 27 24 = 0 ∨ slice c.V 27 24 = 15 := by
  simp [wfLineHolds, nibble_eq_iff]

theorem wfLineHolds_bigEndEL0Inv : wfLineHolds c .bigEndEL0Inv = true ↔
    (slice c.V 11 8 ≠ 0 → slice c.V 19 16 = 0) := by
  simp [wfLineHolds, nibble_eq_iff, or_iff_not_imp_left]

theorem wfLineHolds_asidBits :
    wfLineHolds c .asidBits = true ↔ slice c.V 7 4 = 0 ∨ slice c.V 7 4 = 2 := by
  simp [wfLineHolds, nibble_eq_iff]

theorem wfLineHolds_paRange : wfLineHolds c .paRange = true ↔
    slice c.V 3 0 ≤ 5 ∨ (slice c.V 3 0 = 6 ∧ c.featLPA = true) := by
  simp only [wfLineHolds, Bool.or_eq_true, Bool.and_eq_true, beq_iff_eq, nibble_eq_iff, Nat.reduceLT,
    toNat_paRange]
  exact or_congr_left (by omega)

end Lines

/-! ### The decode functions, row by row of their tables, in slices -/

/-- The rows of rule R22. -/
theorem decodeECV_cases (v : Word) :
    (slice v 63 60 = 0 ∧ decodeECV (ecv v) = .ecvNone) ∨
    (slice v 63 60 = 1 ∧ decodeECV (ecv v) = .ecvBase) ∨
    (slice v 63 60 = 2 ∧ decodeECV (ecv v) = .ecvWithOffset) ∨
    (2 < slice v 63 60 ∧ decodeECV (ecv v) = .reserved) := by
  simp only [decodeECV, nibble_eq_iff, Nat.reduceLT, toNat_ecv]
  split_ifs <;> simp <;> omega

/-- The rows of rule R23. -/
theorem decodeFGT_cases (v : Word) :
    (slice v 59 56 = 0 ∧ decodeFGT (fgt v) = .fgtNone) ∨
    (slice v 59 56 = 1 ∧ decodeFGT (fgt v) = .fgtImplemented) ∨
    (1 < slice v 59 56 ∧ decodeFGT (fgt v) = .reserved) := by
  simp only [decodeFGT, nibble_eq_iff, Nat.reduceLT, toNat_fgt]
  split_ifs <;> simp <;> omega

/-- What FGT 0b0001 brings, item by item (R23). -/
theorem mem_fgtBrings_fgtImplemented {haveEL2 haveEL3 : Bool} {item : NamedItem} :
    item ∈ fgtBrings haveEL2 haveEL3 .fgtImplemented ↔
      (haveEL2 = true ∧ item ∈ fineGrainedTrapRegisters.map .trapRegister) ∨
      (haveEL2 = true ∧ item ∈ fineGrainedTrapRegisters.map .trapsOf) ∨
      (haveEL2 = true ∧ item = .mdcrEL2_TDCC) ∨ (haveEL3 = true ∧ item = .mdcrEL3_TDCC) ∨
      (haveEL2 = true ∧ haveEL3 = true ∧ item = .scrEL3_FGTEn) := by
  simp only [fgtBrings, List.mem_append, List.mem_ite_nil_right, List.mem_singleton, and_or_left,
    Bool.and_eq_true, and_assoc, or_assoc]

/-- The rows of rule R25. -/
theorem decodeExS_cases (v : Word) :
    (slice v 47 44 = 0 ∧ decodeExS (exS v) = .allExceptionEntryExitSynchronizing) ∨
    (slice v 47 44 = 1 ∧ decodeExS (exS v) = .nonSynchronizingEntryExitSupported) ∨
    (1 < slice v 47 44 ∧ decodeExS (exS v) = .reserved) := by
  simp only [decodeExS, nibble_eq_iff, Nat.reduceLT, toNat_exS]
  split_ifs <;> simp <;> omega

/-- The rows of rule R27. -/
theorem decodeTGran64_2_cases (v : Word) :
    (slice v 39 36 = 0 ∧ decodeTGran64_2 (tGran64_2 v) = .seeStage1Field) ∨
    (slice v 39 36 = 1 ∧ decodeTGran64_2 (tGran64_2 v) = .notSupported) ∨
    (slice v 39 36 = 2 ∧ decodeTGran64_2 (tGran64_2 v) = .supported) ∨
    (2 < slice v 39 36 ∧ decodeTGran64_2 (tGran64_2 v) = .reserved) := by
  simp only [decodeTGran64_2, nibble_eq_iff, Nat.reduceLT, toNat_tGran64_2]
  split_ifs <;> simp <;> omega

/-- The rows of rule R30. -/
theorem decodeTGran64_cases (v : Word) :
    (slice v 27 24 = 0 ∧ decodeTGran64 (tGran64 v) = .supported) ∨
    (slice v 27 24 = 15 ∧ decodeTGran64 (tGran64 v) = .notSupported) ∨
    (slice v 27 24 ≠ 0 ∧ slice v 27 24 ≠ 15 ∧ decodeTGran64 (tGran64 v) = .reserved) := by
  simp only [decodeTGran64, nibble_eq_iff, Nat.reduceLT, toNat_tGran64]
  split_ifs <;> simp <;> omega

/-- The answer of `Stage2Gran64` by the rows of rule R27: only zero asks TGran64. -/
theorem stage2Gran64_cases (v : Word) :
    (slice v 39 36 = 0 ∧ decodeTGran64_2 (tGran64_2 v) = .seeStage1Field ∧
      stage2Gran64 v = decodeTGran64 (tGran64 v)) ∨
    (slice v 39 36 = 1 ∧ decodeTGran64_2 (tGran64_2 v) = .notSupported ∧ stage2Gran64 v = .notSupported) ∨
    (slice v 39 36 = 2 ∧ decodeTGran64_2 (tGran64_2 v) = .supported ∧ stage2Gran64 v = .supported) ∨
    (2 < slice v 39 36 ∧ decodeTGran64_2 (tGran64_2 v) = .reserved ∧ stage2Gran64 v = .reserved) := by
  obtain ⟨hs, hd⟩ | ⟨hs, hd⟩ | ⟨hs, hd⟩ | ⟨hs, hd⟩ := decodeTGran64_2_cases v <;>
    simp [stage2Gran64, followStage1, hs, hd]

/-- The rows of rules R32 and R34 together: BigEndEL0 counts only when BigEnd is zero. -/
theorem byteOrder_cases (v : Word) :
    (slice v 11 8 = 1 ∧ eeConfigurable v = .yes ∧ e0eConfigurable v = .yes) ∨
    (slice v 11 8 = 0 ∧ slice v 19 16 = 0 ∧ eeConfigurable v = .no ∧ e0eConfigurable v = .no) ∨
    (slice v 11 8 = 0 ∧ slice v 19 16 = 1 ∧ eeConfigurable v = .no ∧ e0eConfigurable v = .yes) ∨
    (slice v 11 8 = 0 ∧ 1 < slice v 19 16 ∧ eeConfigurable v = .no ∧ e0eConfigurable v = .reserved) ∨
    (1 < slice v 11 8 ∧ eeConfigurable v = .reserved ∧ e0eConfigurable v = .reserved) := by
  simp only [eeConfigurable, e0eConfigurable, nibble_eq_iff, Nat.reduceLT, toNat_bigEnd, toNat_bigEndEL0]
  split_ifs <;> simp <;> omega

/-- The rows of rule R35. -/
theorem asidSize_cases (v : Word) :
    (slice v 7 4 = 0 ∧ asidSize (asidBits v) = .bitsOf 8) ∨
    (slice v 7 4 = 2 ∧ asidSize (asidBits v) = .bitsOf 16) ∨
    (slice v 7 4 ≠ 0 ∧ slice v 7 4 ≠ 2 ∧ asidSize (asidBits v) = .reserved) := by
  simp only [asidSize, nibble_eq_iff, Nat.reduceLT, toNat_asidBits]
  split_ifs <;> simp <;> omega

/-- The rows of rule R36; only 0b0110 asks for FEAT_LPA. -/
theorem paBits_paRange (v : Word) (lpa : Bool) : paBits (paRange v) lpa =
    if slice v 3 0 = 0 then .bitsOf 32
    else if slice v 3 0 = 1 then .bitsOf 36
    else if slice v 3 0 = 2 then .bitsOf 40
    else if slice v 3 0 = 3 then .bitsOf 42
    else if slice v 3 0 = 4 then .bitsOf 44
    else if slice v 3 0 = 5 then .bitsOf 48
    else if slice v 3 0 = 6 ∧ lpa = true then .bitsOf 52
    else .reserved := by
  simp only [paBits, nibble_eq_iff, Nat.reduceLT, toNat_paRange]

theorem paBits_paRange_of_six_lt {v : Word} (h : 6 < slice v 3 0) (lpa : Bool) :
    paBits (paRange v) lpa = .reserved := by
  rw [paBits_paRange]
  repeat rw [if_neg (by omega)]

/-! ### The layout -/

/-- The topmost field is what lies above its lowest bit. -/
theorem bits_top_toNat {v : Word} {lo width : Nat} (h : lo + width = 64) :
    (bits v lo width).toNat = v.toNat / 2 ^ lo := by
  have hv : v.toNat < 2 ^ lo * 2 ^ width := by rw [← pow_add, h]; exact v.isLt
  rw [bits_toNat, Nat.mod_eq_of_lt (Nat.div_lt_of_lt_mul hv)]

/-- Appending the field below what lies above it gives what lies above the field's lowest bit. -/
theorem append_bits_toNat {n lo width : Nat} {x : BitVec n} {v : Word}
    (hx : x.toNat = v.toNat / 2 ^ (lo + width)) : (x ++ bits v lo width).toNat = v.toNat / 2 ^ lo := by
  rw [toNat_append_add, hx, bits_toNat, pow_add, ← Nat.div_div_eq_div_mul, Nat.div_add_mod']

/-- A value is the concatenation of its fifteen fields (R21): the top field, then the fourteen below it appended one by
one. -/
theorem fields_concatenated (v : Word) :
    v = ecv v ++ fgt v ++ res0_55_48 v ++ exS v ++ tGran4_2 v ++ tGran64_2 v ++ tGran16_2 v ++ tGran4 v
      ++ tGran64 v ++ tGran16 v ++ bigEndEL0 v ++ snsMem v ++ bigEnd v ++ asidBits v ++ paRange v := by
  refine BitVec.eq_of_toNat_eq ((Nat.div_one _).symm.trans (Eq.symm ?_))
  iterate 14 refine append_bits_toNat ?_
  exact bits_top_toNat rfl

/-- The fields that contain a bit (R21). -/
def fieldsOfBit (b : Nat) : List FieldName :=
  allFields.filter fun f => fieldLow f ≤ b ∧ b < fieldLow f + fieldWidth f

theorem mem_allFields (f : FieldName) : f ∈ allFields := by cases f <;> decide

theorem mem_fieldsOfBit {f : FieldName} {b : Nat} :
    f ∈ fieldsOfBit b ↔ fieldLow f ≤ b ∧ b < fieldLow f + fieldWidth f := by
  simp [fieldsOfBit, mem_allFields]

theorem length_fieldsOfBit : ∀ b < 64, (fieldsOfBit b).length = 1 := by decide

/-- Each bit number lies in a field, and the field is determined by it (R21). -/
theorem existsUnique_field_of_bit (b : Nat) (hb : b < 64) :
    ∃ f, (fieldLow f ≤ b ∧ b < fieldLow f + fieldWidth f) ∧
      ∀ g, fieldLow g ≤ b ∧ b < fieldLow g + fieldWidth g → g = f := by
  obtain ⟨f, hf⟩ := List.length_eq_one_iff.mp (length_fieldsOfBit b hb)
  refine ⟨f, mem_fieldsOfBit.mp (by simp [hf]), fun g hg => ?_⟩
  simpa [hf] using mem_fieldsOfBit.mpr hg

end Sys2Proof.Machine

/-! ### The obligations -/

namespace Sys2Proof.Proofs

open Machine Machine.Mmfr0

/-- Settles O33: the ranges and digits by evaluation, then one field per bit and the concatenation of the fifteen. -/
theorem layoutOfTheFifteenFields : Obligations.LayoutOfTheFifteenFields := by
  unfold Obligations.LayoutOfTheFifteenFields
  exact ⟨rfl, rfl, existsUnique_field_of_bit, fields_concatenated⟩

/-- Settles O36: the rows by `decodeECV_cases`, the legal values by the lines WF_ECV and WF_ECV_86. -/
theorem ecvFieldTable : Obligations.EcvFieldTable := by
  unfold Obligations.EcvFieldTable
  refine ⟨fun v => ?_, fun c hc => ?_⟩
  · obtain ⟨hs, hd⟩ | ⟨hs, hd⟩ | ⟨hs, hd⟩ | ⟨hs, hd⟩ := decodeECV_cases v <;>
      simp [hd, ecvSupports, ecvExtends, ecvBaseSupports] <;> omega
  · exact ⟨wfLineHolds_ecv.mp (wf_iff.mp hc .ecv), wfLineHolds_ecv86.mp (wf_iff.mp hc .ecv86)⟩

/-- Settles O37: the rows by `decodeFGT_cases`, the four items by `mem_fgtBrings_fgtImplemented`. -/
theorem fgtFieldTable : Obligations.FgtFieldTable := by
  unfold Obligations.FgtFieldTable
  refine ⟨fun v => ?_, fun haveEL2 haveEL3 => ⟨rfl, fun item => mem_fgtBrings_fgtImplemented⟩, fun c hc => ?_⟩
  · obtain ⟨hs, hd⟩ | ⟨hs, hd⟩ | ⟨hs, hd⟩ := decodeFGT_cases v <;> simp [hd, fgtBrings] <;> omega
  · exact ⟨wfLineHolds_fgt.mp (wf_iff.mp hc .fgt), wfLineHolds_fgt86.mp (wf_iff.mp hc .fgt86)⟩

/-- Settles O39: the rows by `decodeExS_cases`. -/
theorem exSFieldTable : Obligations.ExSFieldTable := by
  unfold Obligations.ExSFieldTable
  refine ⟨fun v => ?_, fun c hc => wfLineHolds_exS.mp (wf_iff.mp hc .exS)⟩
  obtain ⟨hs, hd⟩ | ⟨hs, hd⟩ | ⟨hs, hd⟩ := decodeExS_cases v <;> simp [hd] <;> omega

/-- Settles O40: the rows of TGran64_2 with stage-2 support by `stage2Gran64_cases`, those of TGran64 apart. -/
theorem granule64KBFieldTables : Obligations.Granule64KBFieldTables := by
  unfold Obligations.Granule64KBFieldTables
  refine ⟨fun v => ?_, fun c hc => ?_⟩
  · refine ⟨?_, ?_, ?_, ?_, ?tGran64⟩
    case tGran64 =>
      obtain ⟨hs, hd⟩ | ⟨hs, hd⟩ | ⟨hs, hs', hd⟩ := decodeTGran64_cases v <;> simp [hd] <;> omega
    all_goals
      obtain ⟨hs, hd, h2⟩ | ⟨hs, hd, h2⟩ | ⟨hs, hd, h2⟩ | ⟨hs, hd, h2⟩ := stage2Gran64_cases v <;>
        simp [hd, h2] <;> omega
  · exact ⟨wfLineHolds_tGran64_2.mp (wf_iff.mp hc .tGran64_2), wfLineHolds_tGran64.mp (wf_iff.mp hc .tGran64)⟩

/-- Settles O43: the rows of both fields at once by `byteOrder_cases`. -/
theorem bigEndFieldTables : Obligations.BigEndFieldTables := by
  unfold Obligations.BigEndFieldTables
  refine ⟨fun v => ?_, fun c hc => ?_⟩
  · obtain ⟨hb, he, h0⟩ | ⟨hb, hl, he, h0⟩ | ⟨hb, hl, he, h0⟩ | ⟨hb, hl, he, h0⟩ | ⟨hb, he, h0⟩ :=
      byteOrder_cases v <;> simp [he, h0] <;> omega
  · exact ⟨wfLineHolds_bigEnd.mp (wf_iff.mp hc .bigEnd), wfLineHolds_bigEndEL0.mp (wf_iff.mp hc .bigEndEL0),
      wfLineHolds_bigEndEL0Inv.mp (wf_iff.mp hc .bigEndEL0Inv)⟩

/-- Settles O45: the rows by `asidSize_cases`. -/
theorem asidBitsFieldTable : Obligations.ASIDBitsFieldTable := by
  unfold Obligations.ASIDBitsFieldTable
  refine ⟨fun v => ?_, fun c hc => wfLineHolds_asidBits.mp (wf_iff.mp hc .asidBits)⟩
  obtain ⟨hs, hd⟩ | ⟨hs, hd⟩ | ⟨hs, hs', hd⟩ := asidSize_cases v <;> simp [hd] <;> omega

/-- Settles O46: each row by `paBits_paRange`, the reserved ones by `paBits_paRange_of_six_lt`. -/
theorem paRangeFieldTable : Obligations.PARangeFieldTable := by
  unfold Obligations.PARangeFieldTable
  refine ⟨fun v lpa => ?_, fun c hc => ?_⟩
  · refine ⟨?_, ?_, ?_, ?_, ?_, ?_, ?_, fun h => paBits_paRange_of_six_lt h lpa⟩ <;> intro h <;>
      simp [paBits_paRange, h, spaceBytes]
  · obtain hs | ⟨hs, hlpa⟩ := wfLineHolds_paRange.mp (wf_iff.mp hc .paRange)
    · omega
    · exact ⟨hs.le, fun _ => hlpa⟩

end Sys2Proof.Proofs

/-! ### The obligations on the access (40_mrs_read.md) -/

namespace Sys2Proof.Proofs

open Machine

/-- Settles O11: by `exec_msr` the arm only raises `undefined`, whatever `s` and `t` are (R106, D5). -/
theorem writeFormIsUndefined : Obligations.WriteFormIsUndefined := by
  unfold Obligations.WriteFormIsUndefined
  intro s t
  rw [exec_msr, raiseException]

end Sys2Proof.Proofs

/-! ### The access at one exception level, and what the read makes of each access outcome (60_exceptions.md) -/

namespace Sys2Proof.Machine

/-- The rows of R101's table for EL0 (R153): FEAT_IDST first, then the EL2 condition with TGE. -/
theorem access_cases_of_el0 {c : Cfg} {x : Ctx} (h : x.el = .el0) :
    (c.featIDST = false ∧ access c x = .undefined) ∨
    (c.featIDST = true ∧ ¬(x.el2Enabled = true ∧ x.tge = 1#1) ∧ access c x = .trapped .el1 0x18) ∨
    (c.featIDST = true ∧ (x.el2Enabled = true ∧ x.tge = 1#1) ∧ access c x = .trapped .el2 0x18) := by
  simpa [h, readAllowed] using access_cases c x

/-- The rows of R101's table for EL1 (R154): the EL2 condition with TID3. -/
theorem access_cases_of_el1 {c : Cfg} {x : Ctx} (h : x.el = .el1) :
    ((x.el2Enabled = true ∧ x.tid3 = 1#1) ∧ access c x = .trapped .el2 0x18) ∨
    (¬(x.el2Enabled = true ∧ x.tid3 = 1#1) ∧ access c x = .returned c.V) := by
  simpa [h, readAllowed] using access_cases c x

variable {s : State} {t : RegNumber}

theorem exec_mrs_of_trapped {target : TrapTarget} {n : Nat} (h : access s.cfg s.ctx = .trapped target n) :
    exec (.mrsIdAa64mmfr0El1 t) s = .fault (.systemAccessTrap target n) :=
  completeRead_fault.mpr (.inl ⟨target, n, h, rfl⟩)

theorem exec_mrs_of_undefined (h : access s.cfg s.ctx = .undefined) :
    exec (.mrsIdAa64mmfr0El1 t) s = .fault .undefined :=
  completeRead_fault.mpr (.inr ⟨h, rfl⟩)

theorem exec_mrs_of_returned {v : Word} (h : access s.cfg s.ctx = .returned v) :
    exec (.mrsIdAa64mmfr0El1 t) s = .next (s.writeX t v).advancePc :=
  completeRead_next.mpr ⟨v, h, rfl⟩

end Sys2Proof.Machine

/-! ### The obligations on the exceptions (60_exceptions.md) -/

namespace Sys2Proof.Proofs

open Machine

/-- Settles O6: by `access_cases_of_el0` each clause is one row of the table, and the other rows contradict its
hypotheses. -/
theorem readAtEL0IsRoutedByTGE : Obligations.ReadAtEL0IsRoutedByTGE := by
  unfold Obligations.ReadAtEL0IsRoutedByTGE
  intro s t hel
  obtain ⟨hi, ha⟩ | ⟨hi, ht, ha⟩ | ⟨hi, ht, ha⟩ := access_cases_of_el0 (c := s.cfg) hel
  · simp [hi, exec_mrs_of_undefined ha]
  · simp [hi, ht, exec_mrs_of_trapped ha]
  · simp [hi, ht, exec_mrs_of_trapped ha]

/-- Settles O7: by `access_cases_of_el1` the read traps or returns `cfg.V`, and `readX_writeX` reads what it wrote. -/
theorem readAtEL1IsTrappedByTID3 : Obligations.ReadAtEL1IsTrappedByTID3 := by
  unfold Obligations.ReadAtEL1IsTrappedByTID3
  intro s t hel
  obtain ⟨ht, ha⟩ | ⟨ht, ha⟩ := access_cases_of_el1 (c := s.cfg) hel
  · refine ⟨fun _ => exec_mrs_of_trapped ha, fun hf => ?_⟩
    simp [ht] at hf
  · refine ⟨fun htrap => absurd htrap ht, fun _ => ⟨_, exec_mrs_of_returned ha, fun n hn => ?_⟩⟩
    rw [advancePc_readX, readX_writeX, if_pos hn]

end Sys2Proof.Proofs


/-! ### The decoder by word numbers, and the encoder as its inverse (30_encoding.md) -/

namespace Sys2Proof

/-- The word of a read as a number (R82). -/
theorem encode_mrs_toNat (t : RegNumber) : (encode (.mrsIdAa64mmfr0El1 t)).toNat = 0xD5380700 + t.toNat := by
  simp [encode, systemMoveWord_toNat, selector]

/-- The word of a write form as a number (R85). -/
theorem encode_msr_toNat (t : RegNumber) : (encode (.msrIdAa64mmfr0El1 t)).toNat = 0xD5180700 + t.toNat := by
  simp [encode, systemMoveWord_toNat, selector]

/-- What the decoder answers, and in which range of words (R88). -/
theorem decode_cases (w : InstrWord) :
    (w.toNat = 0xD5380700 + (regField w).toNat ∧ decode w = .instr (.mrsIdAa64mmfr0El1 (regField w))) ∨
    (w.toNat = 0xD5180700 + (regField w).toNat ∧ decode w = .instr (.msrIdAa64mmfr0El1 (regField w))) ∨
    (w.toNat / 32 ≠ 0xD5380700 / 32 ∧ w.toNat / 32 ≠ 0xD5180700 / 32 ∧ decode w = .notThisHardware) := by
  have read : rowMatches mrsRow w = true ↔ w.toNat / 32 = 0xD5380700 / 32 := rowMatches_iff (by decide) w
  have write : rowMatches msrRow w = true ↔ w.toNat / 32 = 0xD5180700 / 32 := rowMatches_iff (by decide) w
  rw [regField_toNat]
  unfold decode
  split_ifs with hr hw
  · exact .inl ⟨by have := read.mp hr; omega, rfl⟩
  · exact .inr (.inl ⟨by have := write.mp hw; omega, rfl⟩)
  · exact .inr (.inr ⟨mt read.mpr hr, mt write.mpr hw, rfl⟩)

theorem decode_eq_mrs_iff {w : InstrWord} {t : RegNumber} :
    decode w = .instr (.mrsIdAa64mmfr0El1 t) ↔ w.toNat = 0xD5380700 + t.toNat := by
  have ht := t.isLt
  obtain ⟨hw, hd⟩ | ⟨hw, hd⟩ | ⟨hr, hm, hd⟩ := decode_cases w
  · simp only [hd, Decoded.instr.injEq, Instr.mrsIdAa64mmfr0El1.injEq, ← BitVec.toNat_inj]
    omega
  · have := (regField w).isLt
    simp only [hd, Decoded.instr.injEq, reduceCtorEq, false_iff]
    omega
  · simp only [hd, reduceCtorEq, false_iff]
    omega

theorem decode_eq_msr_iff {w : InstrWord} {t : RegNumber} :
    decode w = .instr (.msrIdAa64mmfr0El1 t) ↔ w.toNat = 0xD5180700 + t.toNat := by
  have ht := t.isLt
  obtain ⟨hw, hd⟩ | ⟨hw, hd⟩ | ⟨hr, hm, hd⟩ := decode_cases w
  · have := (regField w).isLt
    simp only [hd, Decoded.instr.injEq, reduceCtorEq, false_iff]
    omega
  · simp only [hd, Decoded.instr.injEq, Instr.msrIdAa64mmfr0El1.injEq, ← BitVec.toNat_inj]
    omega
  · simp only [hd, reduceCtorEq, false_iff]
    omega

theorem decode_eq_notThisHardware_iff {w : InstrWord} : decode w = .notThisHardware ↔
    ¬(0xD5380700 ≤ w.toNat ∧ w.toNat ≤ 0xD538071F) ∧ ¬(0xD5180700 ≤ w.toNat ∧ w.toNat ≤ 0xD518071F) := by
  have := (regField w).isLt
  obtain ⟨hw, hd⟩ | ⟨hw, hd⟩ | ⟨hr, hm, hd⟩ := decode_cases w <;> simp only [hd, reduceCtorEq, false_iff, true_iff] <;>
    omega

/-- Decoding is the inverse of encoding, in both directions. -/
theorem decode_eq_instr_iff {w : InstrWord} {i : Instr} : decode w = .instr i ↔ encode i = w := by
  rw [← BitVec.toNat_inj, eq_comm (b := w.toNat)]
  cases i with
  | mrsIdAa64mmfr0El1 t => rw [decode_eq_mrs_iff, encode_mrs_toNat]
  | msrIdAa64mmfr0El1 t => rw [decode_eq_msr_iff, encode_msr_toNat]

theorem decode_encode (i : Instr) : decode (encode i) = .instr i := decode_eq_instr_iff.mpr rfl

/-- The word layout loses nothing: a move word determines its selector (R82). -/
theorem selector_eq_of_systemMoveWord_eq {l l' : BitVec 1} {s s' : Selector} {t t' : RegNumber}
    (h : systemMoveWord l s t = systemMoveWord l' s' t') : s = s' := by
  have hn := congrArg BitVec.toNat h
  obtain ⟨a, b, c, d, e⟩ := s
  obtain ⟨a', b', c', d', e'⟩ := s'
  simp only [systemMoveWord_toNat] at hn
  simp only [Selector.mk.injEq, ← BitVec.toNat_inj]
  omega

/-- Every instruction is the move word of the register's selector, and every such word is an instruction. -/
theorem exists_encode_eq_systemMoveWord_iff {l : BitVec 1} {sel : Selector} {t : RegNumber} :
    (∃ i, encode i = systemMoveWord l sel t) ↔ sel = selector := by
  constructor
  · rintro ⟨i, hi⟩
    cases i with
    | mrsIdAa64mmfr0El1 u => exact (selector_eq_of_systemMoveWord_eq hi).symm
    | msrIdAa64mmfr0El1 u => exact (selector_eq_of_systemMoveWord_eq hi).symm
  · rintro rfl
    obtain rfl | rfl := BitVec.eq_zero_or_eq_one l
    · exact ⟨.msrIdAa64mmfr0El1 t, rfl⟩
    · exact ⟨.mrsIdAa64mmfr0El1 t, rfl⟩

/-- The four bytes of a word, lowest address first, are the word again (T6). -/
theorem wordOfBytes_wordByte (w : InstrWord) :
    Machine.wordOfBytes (Machine.wordByte w 0) (Machine.wordByte w 1) (Machine.wordByte w 2) (Machine.wordByte w 3)
      = w := by
  apply BitVec.eq_of_toNat_eq
  have := w.isLt
  simp only [Machine.wordOfBytes, Machine.wordByte, toNat_append_add, BitVec.extractLsb'_toNat,
    Nat.shiftRight_eq_div_pow]
  omega

theorem decodeBytes_encodeBytes_append (i : Instr) (rest : List Byte) :
    decodeBytes (encodeBytes i ++ rest) = .word (.instr i) rest := by
  change DecodedBytes.word (decode (Machine.wordOfBytes _ _ _ _)) rest = _
  rw [wordOfBytes_wordByte, decode_encode]

theorem decodeBytes_eq_tooShort_iff (bs : List Byte) : decodeBytes bs = .tooShort ↔ bs.length < 4 := by
  match bs with
  | [] | [_] | [_, _] | [_, _, _] => simp [decodeBytes]
  | _ :: _ :: _ :: _ :: rest => simp [decodeBytes]

end Sys2Proof

/-! ### The obligations on the encoding (30_encoding.md, 95_test_vectors.md T6) -/

namespace Sys2Proof.Proofs

/-- Settles O2: `decode_eq_instr_iff`, from the number of each instruction's word and the decoder's ranges. -/
theorem decodeEncodeAgree : Obligations.DecodeEncodeAgree := by
  unfold Obligations.DecodeEncodeAgree
  intro w i
  exact decode_eq_instr_iff

/-- Settles O3: an instruction's word is a move word with the register's selector, and a move word determines its
selector. -/
theorem onlyOneSelectorIsThisHardware : Obligations.OnlyOneSelectorIsThisHardware := by
  unfold Obligations.OnlyOneSelectorIsThisHardware
  intro l sel t
  simp only [decode_eq_instr_iff, exists_encode_eq_systemMoveWord_iff]
  cases sel
  rw [selector, Selector.mk.injEq]

/-- Settles O4: the three answers of the decoder, each with its range of word numbers. -/
theorem decodeByWordRange : Obligations.DecodeByWordRange := by
  unfold Obligations.DecodeByWordRange
  intro w
  exact ⟨fun t => decode_eq_mrs_iff, fun t => decode_eq_msr_iff, decode_eq_notThisHardware_iff⟩

/-- Settles O5: the bytes of a word compose to it again (`wordOfBytes_wordByte`); fewer than four match no pattern. -/
theorem byteDecodingRoundTrip : Obligations.ByteDecodingRoundTrip := by
  unfold Obligations.ByteDecodingRoundTrip
  exact ⟨decodeBytes_encodeBytes_append, decodeBytes_eq_tooShort_iff⟩

/-- Settles O1: each printed word is its instruction's encoding, or lies outside the decoder's two ranges. -/
theorem printedWordsDecode : Obligations.PrintedWordsDecode := by
  unfold Obligations.PrintedWordsDecode
  simp only [decode_eq_mrs_iff, decode_eq_msr_iff, decode_eq_notThisHardware_iff]
  decide

end Sys2Proof.Proofs

/-! ### An instruction's completion and its faults, by the context (40_mrs_read.md, 60_exceptions.md) -/

namespace Sys2Proof.Machine

variable {s s' : State} {t : RegNumber}

theorem access_eq_returned_iff {c : Cfg} {x : Ctx} {v : Word} :
    access c x = .returned v ↔ readAllowed x ∧ v = c.V := by
  obtain ⟨he, _, ha⟩ | ⟨he, _, _, ha⟩ | ⟨he, _, _, ha⟩ | ⟨he, ht, ha⟩ | ⟨hx, ha⟩ := access_cases c x
  · simp [ha, readAllowed, he]
  · simp [ha, readAllowed, he]
  · simp [ha, readAllowed, he]
  · simp [ha, readAllowed, he, ht]
  · simp [ha, hx, eq_comm]

theorem exec_mrs_next : exec (.mrsIdAa64mmfr0El1 t) s = .next s' ↔
    readAllowed s.ctx ∧ s' = (s.writeX t s.cfg.V).advancePc := by
  simp [exec_mrs, completeRead_next, access_eq_returned_iff, and_assoc]

theorem exec_mrs_of_allowed (h : readAllowed s.ctx) :
    exec (.mrsIdAa64mmfr0El1 t) s = .next (s.writeX t s.cfg.V).advancePc := exec_mrs_next.mpr ⟨h, rfl⟩

/-- The registers after an allowed read (R103): its destination holds the value, the others what they held. -/
theorem readX_after_read (s : State) (t : RegNumber) (v : Word) (n : Fin 31) :
    (s.writeX t v).advancePc.readX n = if n.val = t.toNat then v else s.readX n := by
  rw [advancePc_readX, readX_writeX]

/-- A completed instruction is an allowed read: the write form never completes. -/
theorem exec_next {i : Instr} : exec i s = .next s' ↔
    ∃ t, i = .mrsIdAa64mmfr0El1 t ∧ readAllowed s.ctx ∧ s' = (s.writeX t s.cfg.V).advancePc := by
  cases i with
  | mrsIdAa64mmfr0El1 t => simp [exec_mrs_next]
  | msrIdAa64mmfr0El1 t => simp [exec_msr, raiseException]

theorem exec_ne_refused {i : Instr} {r : Refusal} : exec i s ≠ .refused r := by
  cases i with
  | mrsIdAa64mmfr0El1 t => exact completeRead_ne_refused
  | msrIdAa64mmfr0El1 t => simp [exec_msr, raiseException]

/-- An instruction faults or completes; it never refuses. -/
theorem exec_fault_or_next (i : Instr) (s : State) : (∃ f, exec i s = .fault f) ∨ (∃ s', exec i s = .next s') := by
  cases h : exec i s with
  | fault f => exact .inl ⟨f, rfl⟩
  | next s' => exact .inr ⟨s', rfl⟩
  | refused r => exact absurd h exec_ne_refused

theorem exec_mrs_fault_of_not_allowed (h : ¬readAllowed s.ctx) : ∃ f, exec (.mrsIdAa64mmfr0El1 t) s = .fault f :=
  (exec_fault_or_next _ s).resolve_right fun ⟨_, hs⟩ => h (exec_mrs_next.mp hs).1

/-- R102 (b), with the condition of EL1 as its two cases. -/
theorem readAllowed_iff {x : Ctx} : readAllowed x ↔
    x.el = .el2 ∨ x.el = .el3 ∨ (x.el = .el1 ∧ (x.el2Enabled = false ∨ x.tid3 = 0#1)) := by
  have tid3_clear : ¬x.tid3 = 1#1 ↔ x.tid3 = 0#1 := by
    obtain h | h := BitVec.eq_zero_or_eq_one x.tid3 <;> simp [h]
  rw [readAllowed, not_and_or, Bool.not_eq_true, tid3_clear]

/-- EL0 never reads the register. -/
theorem not_readAllowed_of_el0 {x : Ctx} (h : x.el = .el0) : ¬readAllowed x := by simp [readAllowed, h]

/-- The rows of R159's table for the read: each fault with its condition. -/
theorem exec_mrs_fault {f : Fault} : exec (.mrsIdAa64mmfr0El1 t) s = .fault f ↔
    (s.ctx.el = .el0 ∧ s.cfg.featIDST = true ∧ (s.ctx.el2Enabled = true ∧ s.ctx.tge = 1#1) ∧
      f = .systemAccessTrap .el2 0x18) ∨
    (s.ctx.el = .el0 ∧ s.cfg.featIDST = true ∧ ¬(s.ctx.el2Enabled = true ∧ s.ctx.tge = 1#1) ∧
      f = .systemAccessTrap .el1 0x18) ∨
    (s.ctx.el = .el1 ∧ (s.ctx.el2Enabled = true ∧ s.ctx.tid3 = 1#1) ∧ f = .systemAccessTrap .el2 0x18) ∨
    (s.ctx.el = .el0 ∧ s.cfg.featIDST = false ∧ f = .undefined) := by
  obtain ⟨he, hi, ha⟩ | ⟨he, hi, ht, ha⟩ | ⟨he, hi, ht, ha⟩ | ⟨he, ht, ha⟩ | ⟨hx, ha⟩ := access_cases s.cfg s.ctx
  · simp [exec_mrs_of_undefined ha, he, hi, eq_comm (b := f)]
  · simp [exec_mrs_of_trapped ha, he, hi, ht, eq_comm (b := f)]
  · simp [exec_mrs_of_trapped ha, he, hi, ht, eq_comm (b := f)]
  · simp [exec_mrs_of_trapped ha, he, ht, eq_comm (b := f)]
  · have completes := exec_mrs_of_allowed (t := t) hx
    obtain he | he | ⟨he, ht⟩ := hx
    · simp [completes, he]
    · simp [completes, he]
    · simp [completes, he, ht]

/-- The faults of an instruction depend on the context and on FEAT_IDST alone (R102 (g), R105). -/
theorem exec_fault_congr {i : Instr} {f : Fault} (hctx : s.ctx = s'.ctx) (hidst : s.cfg.featIDST = s'.cfg.featIDST)
    (h : exec i s = .fault f) : exec i s' = .fault f := by
  cases i with
  | mrsIdAa64mmfr0El1 t => rwa [exec_mrs_fault, hctx, hidst, ← exec_mrs_fault] at h
  | msrIdAa64mmfr0El1 t => exact h

end Sys2Proof.Machine

/-! ### The obligations on one instruction (40_mrs_read.md, 60_exceptions.md, 95_test_vectors.md T5, T7) -/

namespace Sys2Proof.Proofs

open Machine

/-- Settles O8: the next state is the written and advanced one, and the laws of `writeX` and `advancePc` give its
frame. -/
theorem readCompletesAndItsFrame : Obligations.ReadCompletesAndItsFrame := by
  unfold Obligations.ReadCompletesAndItsFrame
  intro s t hx
  exact ⟨_, exec_mrs_of_allowed hx, readX_after_read s t _, by simp⟩

/-- Settles O9: a write to number 31 is discarded. -/
theorem readIntoNumber31WritesNothing : Obligations.ReadIntoNumber31WritesNothing := by
  unfold Obligations.ReadIntoNumber31WritesNothing
  intro s hx
  rw [exec_mrs_of_allowed hx, writeX_31, State.advancePc]

/-- Settles O10: the read completes where `readAllowed` holds, and `readAllowed_iff` writes that out. -/
theorem readCompletesExactlyWhenAllowed : Obligations.ReadCompletesExactlyWhenAllowed := by
  unfold Obligations.ReadCompletesExactlyWhenAllowed
  intro s t
  simp only [exec_mrs_next, exists_and_left, exists_eq, and_true, readAllowed_iff]

/-- Settles O12: the read's rows by `exec_mrs_fault`, the write form's by `exec_msr`. -/
theorem exceptionsAreExactlyTheTable : Obligations.ExceptionsAreExactlyTheTable := by
  unfold Obligations.ExceptionsAreExactlyTheTable
  intro i s f
  cases i with
  | mrsIdAa64mmfr0El1 t => simp [exec_mrs_fault]
  | msrIdAa64mmfr0El1 t => simp [exec_msr, raiseException, eq_comm (b := f)]

/-- Settles O13, by evaluating the 64 cells. -/
theorem accessTableCounts : Obligations.AccessTableCounts := by
  unfold Obligations.AccessTableCounts
  decide

/-- Settles O14: R100's pseudocode at the level in question does not mention the bit. -/
theorem controlBitsNotConsulted : Obligations.ControlBitsNotConsulted := by
  unfold Obligations.ControlBitsNotConsulted
  intro c x b b'
  refine ⟨fun he => by simp [access, he], fun he => by simp [access, he], ?_⟩
  rintro (he | he | h2)
  · simp [access, he]
  · simp [access, he]
  · simp [access, h2]

/-- Settles O15: at EL2 the read is always allowed, and a trap to EL1 came from EL0, whence the retry at EL1 is allowed
or trapped by TID3. -/
theorem retryAtTrapTargetSucceeds : Obligations.RetryAtTrapTargetSucceeds := by
  unfold Obligations.RetryAtTrapTargetSucceeds
  intro s t target n h
  have at_el2 : ∃ s', exec (.mrsIdAa64mmfr0El1 t) (atTarget s .el2) = .next s' :=
    ⟨_, exec_mrs_of_allowed (.inl rfl)⟩
  cases target with
  | el2 => exact .inl at_el2
  | el1 =>
    obtain ⟨-, -, -, rfl⟩ : _ ∧ _ ∧ _ ∧ n = 0x18 := by simpa using exec_mrs_fault.mp h
    by_cases ht : s.ctx.el2Enabled = true ∧ s.ctx.tid3 = 1#1
    · exact .inr ⟨rfl, exec_mrs_fault.mpr (.inr (.inr (.inl ⟨rfl, ht, rfl⟩))), at_el2⟩
    · exact .inl ⟨_, exec_mrs_of_allowed (.inr (.inr ⟨rfl, ht⟩))⟩

/-- Settles O16: where the context allows the read both complete, elsewhere both raise the fault of
`exec_fault_congr`. -/
theorem outcomeDependsOnContextAndIDSTAlone : Obligations.OutcomeDependsOnContextAndIDSTAlone := by
  unfold Obligations.OutcomeDependsOnContextAndIDSTAlone
  intro s₁ s₂ t₁ t₂ hctx hidst
  by_cases hx : readAllowed s₁.ctx
  · exact .inr ⟨_, _, exec_mrs_of_allowed hx, exec_mrs_of_allowed (hctx ▸ hx)⟩
  · obtain ⟨f, hf⟩ := exec_mrs_fault_of_not_allowed (t := t₁) hx
    have hf₂ : exec (.mrsIdAa64mmfr0El1 t₂) s₁ = .fault f := exec_mrs_fault.mpr (exec_mrs_fault.mp hf)
    exact .inl ⟨f, hf, exec_fault_congr hctx hidst hf₂⟩

/-- Settles O17: a fault does not depend on the registers (`exec_fault_congr`); a completed read gives its destination
`cfg.V` in both results and leaves the other registers as they were. -/
theorem generalRegistersAreNeverRead : Obligations.GeneralRegistersAreNeverRead := by
  unfold Obligations.GeneralRegistersAreNeverRead
  intro i s y
  obtain ⟨f, hf⟩ | ⟨r, hr⟩ := exec_fault_or_next i s
  · exact .inl ⟨f, hf, exec_fault_congr (s := s) rfl rfl hf⟩
  · obtain ⟨t, rfl, hx, rfl⟩ := exec_next.mp hr
    refine .inr ⟨_, _, hr, exec_mrs_of_allowed hx, by simp, by simp, by simp, by simp, by simp, fun n => ?_⟩
    rw [readX_after_read, readX_after_read]
    by_cases hn : n.val = t.toNat
    · simp [hn]
    · exact .inr ⟨if_neg hn, if_neg hn⟩

/-- Settles O30: after a reset the context is EL1 with EL2 not enabled, which allows the read. -/
theorem readAfterResetReturnsTheSameValue : Obligations.ReadAfterResetReturnsTheSameValue := by
  unfold Obligations.ReadAfterResetReturnsTheSameValue
  intro s t
  have hx : readAllowed s.afterReset.ctx := .inr (.inr ⟨rfl, by simp [State.afterReset, State.resetWith]⟩)
  refine ⟨rfl, _, exec_mrs_of_allowed hx, fun n => ?_⟩
  rw [readX_after_read, State.afterReset, resetWith_cfg, resetWith_readX]

/-- Settles O56: the concatenated fields as a sum. -/
theorem syndromeOutlineFormula : Obligations.SyndromeOutlineFormula := by
  unfold Obligations.SyndromeOutlineFormula
  intro t
  change (0x18#6 ++ 1#1 ++ 0#3 ++ 0b11#2 ++ 0b000#3 ++ 0b000#3 ++ 0b0000#4 ++ t ++ 0b0111#4 ++ 1#1).toNat = _
  simp only [toNat_append_add, BitVec.toNat_ofNat]
  omega

end Sys2Proof.Proofs

/-! ### The words of a placed text, and the addresses at which they stand (R44, R186) -/

namespace Sys2Proof.Machine

theorem programPlaced_iff {p : Program} : programPlaced p = true ↔ p.base.toNat + 4 * p.words.length < 2 ^ 64 := by
  simp [programPlaced]

theorem fetchWord_wordAddress (p : Program) {k : Nat} (hk : 4 * k < 2 ^ 64) :
    fetchWord p (p.base + BitVec.ofNat 64 (4 * k)) = p.words[k]? := by
  have offset : (p.base + BitVec.ofNat 64 (4 * k) - p.base).toNat = 4 * k := by
    rw [BitVec.add_comm, BitVec.add_sub_cancel, BitVec.toNat_ofNat, Nat.mod_eq_of_lt hk]
  simp only [fetchWord, offset, Nat.mul_mod_right, if_true, Nat.mul_div_cancel_left k (by decide : 0 < 4)]

/-- A word found at an address is word `k` of the text, and the address is word `k`'s. -/
theorem exists_word_of_fetchWord {p : Program} {pc : Word} {w : InstrWord} (h : fetchWord p pc = some w) :
    ∃ k, pc = p.base + BitVec.ofNat 64 (4 * k) ∧ p.words[k]? = some w := by
  obtain ⟨hmod, hw⟩ := fetchWord_eq_some.mp h
  refine ⟨(pc - p.base).toNat / 4, ?_, hw⟩
  rw [Nat.mul_div_cancel' (Nat.dvd_of_mod_eq_zero hmod), BitVec.ofNat_toNat, BitVec.setWidth_eq,
    BitVec.add_comm, BitVec.sub_add_cancel]

theorem fetchWord_eq_some_iff {p : Program} (hp : programPlaced p = true) {pc : Word} {w : InstrWord} :
    fetchWord p pc = some w ↔
      ∃ k, k < p.words.length ∧ pc = p.base + BitVec.ofNat 64 (4 * k) ∧ p.words[k]? = some w := by
  rw [programPlaced_iff] at hp
  constructor
  · intro h
    obtain ⟨k, hpc, hw⟩ := exists_word_of_fetchWord h
    exact ⟨k, (List.getElem?_eq_some_iff.mp hw).1, hpc, hw⟩
  · rintro ⟨k, hk, rfl, hw⟩
    rwa [fetchWord_wordAddress p (by omega)]

theorem decodeTableWord_eq_some {nbits w : Nat} {i : Instr} :
    decodeTableWord nbits w = some i ↔ decode (tableWord nbits w) = .instr i := by
  unfold decodeTableWord
  split <;> simp_all

/-! ### One step, by the word at `pc` (R107) -/

variable {s s' : State}

theorem step_of_fetchWord {w : InstrWord} {i : Instr} (hp : programPlaced s.text = true)
    (hw : fetchWord s.text s.pc = some w) (hi : decode w = .instr i) : step s = exec i s.takeContext := by
  simp [step, hp, hw, hi]

/-- What a step answers, and why: one of the three refusals, or what its instruction answers. -/
theorem step_cases (s : State) :
    (programPlaced s.text = false ∧ step s = .refused .programAcrossTop) ∨
    (programPlaced s.text = true ∧ fetchWord s.text s.pc = none ∧ step s = .refused .noInstructionWord) ∨
    (∃ w, programPlaced s.text = true ∧ fetchWord s.text s.pc = some w ∧ decode w = .notThisHardware ∧
      step s = .refused (.notThisHardware w)) ∨
    (∃ w i, programPlaced s.text = true ∧ fetchWord s.text s.pc = some w ∧ decode w = .instr i ∧
      step s = exec i s.takeContext) := by
  cases hp : programPlaced s.text with
  | false => simp [step, hp]
  | true =>
    cases hw : fetchWord s.text s.pc with
    | none => simp [step, hp, hw]
    | some w => cases hd : decode w <;> simp [step, hp, hw, hd]

theorem step_refused {r : Refusal} : step s = .refused r ↔
    (programPlaced s.text = false ∧ r = .programAcrossTop) ∨
    (programPlaced s.text = true ∧ fetchWord s.text s.pc = none ∧ r = .noInstructionWord) ∨
    (programPlaced s.text = true ∧
      ∃ w, fetchWord s.text s.pc = some w ∧ decode w = .notThisHardware ∧ r = .notThisHardware w) := by
  obtain ⟨hp, hs⟩ | ⟨hp, hw, hs⟩ | ⟨w, hp, hw, hd, hs⟩ | ⟨w, i, hp, hw, hd, hs⟩ := step_cases s
  · simp [hs, hp, eq_comm (b := r)]
  · simp [hs, hp, hw, eq_comm (b := r)]
  · simp [hs, hp, hw, hd, eq_comm (b := r)]
  · simp [hs, hp, hw, hd, exec_ne_refused]

/-- A refusal depends on the text and `pc` alone. -/
theorem step_refused_congr {r : Refusal} (htext : s.text = s'.text) (hpc : s.pc = s'.pc)
    (h : step s = .refused r) : step s' = .refused r := by
  rwa [step_refused, htext, hpc, ← step_refused] at h

/-- A fault depends on the text, `pc`, FEAT_IDST and the context received. -/
theorem step_fault_congr {f : Fault} (htext : s.text = s'.text) (hpc : s.pc = s'.pc)
    (hidst : s.cfg.featIDST = s'.cfg.featIDST) (hctx : s.takeContext.ctx = s'.takeContext.ctx)
    (h : step s = .fault f) : step s' = .fault f := by
  obtain ⟨hp, w, i, hw, hi, he⟩ := step_fault h
  rw [htext] at hp hw
  rw [hpc] at hw
  rw [step_of_fetchWord hp hw hi]
  exact exec_fault_congr hctx (by simpa using hidst) he

/-- A completed step is an allowed read, and its next state is that read's. -/
theorem step_next_read (h : step s = .next s') :
    ∃ w t, fetchWord s.text s.pc = some w ∧ decode w = .instr (.mrsIdAa64mmfr0El1 t) ∧
      readAllowed s.takeContext.ctx ∧ s' = (s.takeContext.writeX t s.cfg.V).advancePc := by
  obtain ⟨-, w, i, hw, hi, he⟩ := step_next h
  obtain ⟨t, rfl, hx, rfl⟩ := exec_next.mp he
  exact ⟨w, t, hw, hi, hx, by rw [takeContext_cfg]⟩

/-- The step on an allowed read completes, and its next state is that read's. -/
theorem step_of_allowed_read {w : InstrWord} {t : RegNumber} (hp : programPlaced s.text = true)
    (hw : fetchWord s.text s.pc = some w) (hi : decode w = .instr (.mrsIdAa64mmfr0El1 t))
    (hx : readAllowed s.takeContext.ctx) :
    step s = .next (s.takeContext.writeX t s.cfg.V).advancePc := by
  rw [step_of_fetchWord hp hw hi, exec_mrs_of_allowed hx, takeContext_cfg]

section CompletedStep

variable (h : step s = .next s')
include h

theorem step_next_cfg : s'.cfg = s.cfg := by
  obtain ⟨w, t, -, -, -, rfl⟩ := step_next_read h; simp

theorem step_next_text : s'.text = s.text := by
  obtain ⟨w, t, -, -, -, rfl⟩ := step_next_read h; simp

theorem step_next_pc : s'.pc = s.pc + 4#64 := by
  obtain ⟨w, t, -, -, -, rfl⟩ := step_next_read h; simp

theorem step_next_ctx : s'.ctx = s.takeContext.ctx := by
  obtain ⟨w, t, -, -, -, rfl⟩ := step_next_read h; simp

theorem step_next_arriving : s'.arriving = s.arriving.tail := by
  obtain ⟨w, t, -, -, -, rfl⟩ := step_next_read h; simp

theorem step_next_readX (k : Fin 31) : s'.readX k = s.readX k ∨ s'.readX k = s.cfg.V := by
  obtain ⟨w, t, -, -, -, rfl⟩ := step_next_read h
  rw [readX_after_read, takeContext_readX]
  split
  · exact .inr rfl
  · exact .inl rfl

/-- A completed step moves from word `k`, which is a read, to the place after it. -/
theorem step_next_atWord {k : Nat} (hk : atWord s k) :
    atWord s' (k + 1) ∧ ∃ w t, s.text.words[k]? = some w ∧ decode w = .instr (.mrsIdAa64mmfr0El1 t) := by
  obtain ⟨hle, hpc⟩ := hk
  obtain ⟨w, t, hw, hd, -, -⟩ := step_next_read h
  have hp := programPlaced_iff.mp (step_next h).1
  rw [hpc, fetchWord_wordAddress _ (by omega)] at hw
  have hlt : k < s.text.words.length := (List.getElem?_eq_some_iff.mp hw).1
  refine ⟨⟨by rw [step_next_text h]; exact hlt, ?_⟩, w, t, hw, hd⟩
  rw [step_next_pc h, step_next_text h, hpc, BitVec.add_assoc, Nat.mul_succ, BitVec.ofNat_add]

end CompletedStep

/-- The three conditions of rule R6, written out. -/
theorem ctxWf_iff {c : Cfg} {x : Ctx} : x.wf c = true ↔
    (x.el2Enabled = true → c.haveEL2 = true) ∧ (x.el = .el2 → c.haveEL2 = true) ∧
      (x.el = .el3 → c.haveEL3 = true) := by
  simp [Ctx.wf, allCtxLines, ctxLineHolds, or_iff_not_imp_left]

/-- Receiving a context keeps every context consistent that is or will be in force. -/
theorem takeContext_ctx_wf {c : Cfg} (hx : s.ctx.wf c = true) (ha : ∀ x ∈ s.arriving, Ctx.wf c x = true) :
    s.takeContext.ctx.wf c = true := by
  rw [takeContext_ctx]
  cases harr : s.arriving with
  | nil => simpa using hx
  | cons x rest => exact ha x (by simp [harr])

theorem atWord_zero (h : s.pc = s.text.base) : atWord s 0 := ⟨Nat.zero_le _, by simp [h]⟩

/-- Every completed step keeps the invariant of a run. -/
theorem inv_step (hs : Inv s) (h : step s = .next s') : Inv s' where
  legal := by rw [step_next_cfg h]; exact hs.legal
  context := by rw [step_next_cfg h, step_next_ctx h]; exact takeContext_ctx_wf hs.context hs.arrivals
  arrivals := by
    rw [step_next_cfg h, step_next_arriving h]
    exact fun x hx => hs.arrivals x (List.mem_of_mem_tail hx)
  placed := by rw [step_next_text h]; exact hs.placed
  pcInText := by
    obtain ⟨k, hk⟩ := hs.pcInText
    exact ⟨k + 1, (step_next_atWord h hk).1⟩

theorem inv_resetWith {c : Cfg} (hc : c.wf = true) : Inv (State.resetWith c) where
  legal := hc
  context := rfl
  arrivals := by simp
  placed := by simp [programPlaced]
  pcInText := ⟨0, by simp [atWord]⟩

/-- What a run keeps of the state in which it began: the configuration, the text, and every register but for the value
read. -/
def KeepsRegister (s₀ s : State) : Prop :=
  s.cfg = s₀.cfg ∧ s.text = s₀.text ∧ ∀ k : Fin 31, s.readX k = s₀.readX k ∨ s.readX k = s₀.cfg.V

theorem keepsRegister_refl (s : State) : KeepsRegister s s := ⟨rfl, rfl, fun _ => .inl rfl⟩

theorem keepsRegister_step {s₀ : State} (hs : KeepsRegister s₀ s) (h : step s = .next s') : KeepsRegister s₀ s' := by
  obtain ⟨hcfg, htext, hx⟩ := hs
  refine ⟨(step_next_cfg h).trans hcfg, (step_next_text h).trans htext, fun k => ?_⟩
  obtain hk | hk := step_next_readX h k
  · rw [hk]; exact hx k
  · exact .inr (by rw [hk, hcfg])

/-- `n` completed steps from word `k` pass `n` words, each of them a read. -/
theorem run_passes_reads {n : Nat} : ∀ {s s' : State} {k : Nat}, atWord s k → core.run n s = .next s' →
    atWord s' (k + n) ∧ ∀ j, k ≤ j → j < k + n →
      ∃ w t, s.text.words[j]? = some w ∧ decode w = .instr (.mrsIdAa64mmfr0El1 t) := by
  induction n with
  | zero =>
    intro s s' k hk h
    rw [run_zero] at h
    exact ⟨h ▸ hk, by omega⟩
  | succ n ih =>
    intro s s' k hk h
    obtain ⟨s₁, h₁, h₂⟩ := run_succ.mp h
    obtain ⟨hk₁, hread⟩ := step_next_atWord h₁ hk
    obtain ⟨hend, hreads⟩ := ih hk₁ h₂
    refine ⟨by rwa [Nat.add_assoc, Nat.add_comm 1 n] at hend, fun j hkj hj => ?_⟩
    obtain rfl | hlt := hkj.eq_or_lt
    · exact hread
    · rw [← step_next_text h₁]; exact hreads j hlt (by omega)

/-! ### A run of allowed reads (R186) -/

/-- Some word of `ws` is a read into general register `n`. -/
def ReadsInto (ws : List InstrWord) (n : Fin 31) : Prop :=
  ∃ t : RegNumber, t.toNat = n.val ∧ ∃ w ∈ ws, decode w = .instr (.mrsIdAa64mmfr0El1 t)

theorem not_readsInto_nil (n : Fin 31) : ¬ReadsInto [] n := by simp [ReadsInto]

theorem readsInto_cons {w : InstrWord} {ws : List InstrWord} {t : RegNumber} {n : Fin 31}
    (hd : decode w = .instr (.mrsIdAa64mmfr0El1 t)) : ReadsInto (w :: ws) n ↔ n.val = t.toNat ∨ ReadsInto ws n := by
  simp [ReadsInto, hd, and_or_left, exists_or, eq_comm]

/-- Every context that a run from here can receive allows the read. -/
def ContextsAllow (s : State) : Prop := (s.arriving = [] → readAllowed s.ctx) ∧ ∀ c ∈ s.arriving, readAllowed c

theorem readAllowed_takeContext (h : ContextsAllow s) : readAllowed s.takeContext.ctx := by
  obtain ⟨hnow, hcoming⟩ := h
  rw [takeContext_ctx]
  cases harr : s.arriving with
  | nil => exact hnow harr
  | cons c rest => exact hcoming c (by simp [harr])

theorem contextsAllow_step (hs : ContextsAllow s) (h : step s = .next s') : ContextsAllow s' := by
  rw [ContextsAllow, step_next_ctx h, step_next_arriving h]
  exact ⟨fun _ => readAllowed_takeContext hs, fun c hc => hs.2 c (List.mem_of_mem_tail hc)⟩

/-- From word `k` on, a text of reads that every context allows runs to its end, and the registers its words name hold
the value. -/
theorem run_of_allowed_reads {ws : List InstrWord} : ∀ {s : State} {k : Nat}, programPlaced s.text = true →
    atWord s k → s.text.words.drop k = ws → (∀ w ∈ ws, ∃ t, decode w = .instr (.mrsIdAa64mmfr0El1 t)) →
    ContextsAllow s →
    ∃ s', core.run ws.length s = .next s' ∧ ∀ n : Fin 31,
      (ReadsInto ws n → s'.readX n = s.cfg.V) ∧ (¬ReadsInto ws n → s'.readX n = s.readX n) := by
  induction ws with
  | nil =>
    intro s k _ _ _ _ _
    exact ⟨s, run_zero.mpr rfl, fun n => ⟨fun h => absurd h (not_readsInto_nil n), fun _ => rfl⟩⟩
  | cons w ws ih =>
    intro s k hp hk hdrop hreads hctx
    obtain ⟨t, hd⟩ := hreads w (by simp)
    have hword : s.text.words[k]? = some w := by
      rw [← List.head?_drop, hdrop, List.head?_cons]
    have hfetch : fetchWord s.text s.pc = some w := by
      have := programPlaced_iff.mp hp
      have := hk.1
      rw [hk.2, fetchWord_wordAddress _ (by omega), hword]
    have h₁ := step_of_allowed_read hp hfetch hd (readAllowed_takeContext hctx)
    obtain ⟨s', hrun, hx⟩ := ih (by rwa [step_next_text h₁]) (step_next_atWord h₁ hk).1
      (by rw [step_next_text h₁, ← List.tail_drop, hdrop, List.tail_cons])
      (fun v hv => hreads v (by simp [hv])) (contextsAllow_step hctx h₁)
    refine ⟨s', run_succ.mpr ⟨_, h₁, hrun⟩, fun n => ?_⟩
    obtain ⟨hnamed, hother⟩ := hx n
    rw [readsInto_cons hd]
    rw [step_next_cfg h₁] at hnamed
    rw [readX_after_read, takeContext_readX] at hother
    by_cases hlater : ReadsInto ws n
    · simp [hlater, hnamed hlater]
    · by_cases hn : n.val = t.toNat <;> simp [hlater, hn, hother hlater]

end Sys2Proof.Machine

/-! ### The obligations on steps and runs (40_mrs_read.md section 5, 70_reset_and_hazards.md section 4) -/

namespace Sys2Proof.Proofs

open Machine

/-- Settles O26: `inv_step`; the step moves `pc` from one word to the next and takes its context from the list. -/
theorem stepKeepsTheInvariant : Obligations.StepKeepsTheInvariant := by
  unfold Obligations.StepKeepsTheInvariant
  exact fun s s' hs h => inv_step hs h

/-- Settles O29: `KeepsRegister` holds at the start and is kept by every step, hence over the run. -/
theorem registerIsConstantOverRuns : Obligations.RegisterIsConstantOverRuns := by
  unfold Obligations.RegisterIsConstantOverRuns
  intro n s s' h
  exact run_induction (P := KeepsRegister s) (fun _ _ => keepsRegister_step) n s s' (keepsRegister_refl s) h

/-- Settles O18: at EL0 no read is allowed, so the step refuses or faults, and by the two congruences neither reason
depends on the value. -/
theorem el0LearnsNothingOfTheRegister : Obligations.EL0LearnsNothingOfTheRegister := by
  unfold Obligations.EL0LearnsNothingOfTheRegister
  intro s v hel
  cases h : step s with
  | next s' =>
    obtain ⟨-, -, -, -, hx, -⟩ := step_next_read h
    exact absurd hx (not_readAllowed_of_el0 hel)
  | fault f =>
    exact .inl ⟨f, rfl, step_fault_congr (s := s) rfl rfl rfl (by simp only [takeContext_ctx]) h⟩
  | refused r => exact .inr ⟨r, rfl, step_refused_congr (s := s) rfl rfl h⟩

/-- Settles O19: `step_of_fetchWord`. -/
theorem stepRunsTheDecodedInstruction : Obligations.StepRunsTheDecodedInstruction := by
  unfold Obligations.StepRunsTheDecodedInstruction
  exact fun s w i hp hw hi => step_of_fetchWord hp hw hi

/-- Settles O20: an address determines its word's number because `4k` does not wrap in a placed text. -/
theorem fetchFindsEachWord : Obligations.FetchFindsEachWord := by
  unfold Obligations.FetchFindsEachWord
  intro p hp
  refine ⟨fun pc w => fetchWord_eq_some_iff hp, fun k hk => fetchWord_wordAddress p ?_⟩
  have := programPlaced_iff.mp hp
  omega

/-- Settles O21: the one-word text is placed, and its word stands at `pc`. -/
theorem withFetchWordIsRunNext : Obligations.WithFetchWordIsRunNext := by
  unfold Obligations.WithFetchWordIsRunNext
  intro s nbits w i hpc hi
  have hp : programPlaced (s.withFetchWord nbits w).text = true := programPlaced_iff.mpr (by simpa using hpc)
  have hw : fetchWord (s.withFetchWord nbits w).text (s.withFetchWord nbits w).pc = some (tableWord nbits w) := by
    simp [fetchWord]
  exact step_of_fetchWord hp hw (decodeTableWord_eq_some.mp hi)

/-- Settles O22: `step_refused`, from the four ways a step can go. -/
theorem stepRefusesExactly : Obligations.StepRefusesExactly := by
  unfold Obligations.StepRefusesExactly
  exact fun s r => step_refused

/-- Settles O23: `step_next_read` names the read, and the laws of the state's operations give the frame. -/
theorem completedStepIsAnAllowedRead : Obligations.CompletedStepIsAnAllowedRead := by
  unfold Obligations.CompletedStepIsAnAllowedRead
  intro s s' h
  obtain ⟨w, t, hw, hd, hx, rfl⟩ := step_next_read h
  refine ⟨t, ⟨w, hw, hd⟩, hx, fun n => ?_, by simp⟩
  rw [readX_after_read, takeContext_readX]

/-- Settles O24: the rows of `exec_mrs_fault`; that EL2 is implemented is the consistency of the context received. -/
theorem trapsGoUpwardsToImplementedLevels : Obligations.TrapsGoUpwardsToImplementedLevels := by
  unfold Obligations.TrapsGoUpwardsToImplementedLevels
  intro s target n hs h
  obtain ⟨implemented, -, -⟩ := ctxWf_iff.mp (takeContext_ctx_wf hs.context hs.arrivals)
  obtain ⟨-, w, i, -, -, he⟩ := step_fault h
  cases i with
  | msrIdAa64mmfr0El1 t => simp [exec_msr, raiseException] at he
  | mrsIdAa64mmfr0El1 t =>
    obtain ⟨hel, -, ⟨h2, -⟩, hf⟩ | ⟨hel, -, -, hf⟩ | ⟨hel, ⟨h2, -⟩, hf⟩ | ⟨-, -, hf⟩ := exec_mrs_fault.mp he
    · cases hf; exact ⟨rfl, .inl hel, fun _ => ⟨h2, implemented h2⟩⟩
    · cases hf; exact ⟨rfl, .inl hel, nofun⟩
    · cases hf; exact ⟨rfl, .inr ⟨hel, rfl⟩, fun _ => ⟨h2, implemented h2⟩⟩
    · cases hf

/-- Settles O25: `inv_resetWith`; State.reset is the reset of a legal configuration. -/
theorem invariantHoldsAtReset : Obligations.InvariantHoldsAtReset := by
  unfold Obligations.InvariantHoldsAtReset
  exact ⟨inv_resetWith Config.pe.legal, fun c hc => inv_resetWith hc⟩

/-- Settles O58: `ctxWf_iff`, the list of R6's lines evaluated. -/
theorem contextConsistencyIsThreeConditions : Obligations.ContextConsistencyIsThreeConditions := by
  unfold Obligations.ContextConsistencyIsThreeConditions
  exact fun c x => ctxWf_iff

/-- Settles O32: the loader and the step ask the same test, `programPlaced_iff`. -/
theorem programsAcrossTheTopRefused : Obligations.ProgramsAcrossTheTopRefused := by
  unfold Obligations.ProgramsAcrossTheTopRefused
  intro s p first later
  refine ⟨fun hlt => ?_, fun hge => ?_⟩
  · have hp : programPlaced p = true := programPlaced_iff.mpr hlt
    exact ⟨_, if_pos hp, rfl, rfl, rfl, rfl, rfl, rfl⟩
  · have hp : ¬programPlaced p = true := mt programPlaced_iff.mp (by omega)
    exact ⟨if_neg hp, step_refused.mpr (.inl ⟨Bool.not_eq_true _ ▸ hp, rfl⟩)⟩

/-- Settles O27: `run_of_allowed_reads` from word 0; where the run ends by `run_passes_reads`. -/
theorem runOfAllowedReadsCompletes : Obligations.RunOfAllowedReadsCompletes := by
  unfold Obligations.RunOfAllowedReadsCompletes
  intro s hp hpc hreads hnow hcoming
  obtain ⟨s', hrun, hx⟩ := run_of_allowed_reads hp (atWord_zero hpc) List.drop_zero hreads ⟨hnow, hcoming⟩
  obtain ⟨hcfg, htext, -⟩ := registerIsConstantOverRuns _ s s' hrun
  have hend := (run_passes_reads (atWord_zero hpc) hrun).1
  rw [Nat.zero_add, ← htext] at hend
  exact ⟨s', hrun, hend, hcfg, htext, hx⟩

/-- Settles O28: `run_passes_reads` from word 0. -/
theorem completedRunPassedOnlyReads : Obligations.CompletedRunPassedOnlyReads := by
  unfold Obligations.CompletedRunPassedOnlyReads
  intro s s' n hpc h
  obtain ⟨⟨hn, -⟩, hreads⟩ := run_passes_reads (atWord_zero hpc) h
  obtain ⟨-, htext, -⟩ := registerIsConstantOverRuns n s s' h
  rw [Nat.zero_add, htext] at hn
  exact ⟨hn, fun k hk => hreads k (Nat.zero_le k) (by omega)⟩

end Sys2Proof.Proofs

/-! ### Assembling a value and cutting it (R120, R122) -/

namespace Sys2Proof.Machine

open Mmfr0

/-- Adding the next field below a sum of fields appends it: Horner's step of rule R122's sum. -/
theorem add_place_eq_place_append {m n lo : Nat} {acc : Word} {x : BitVec m} {y : BitVec n}
    (h : acc = place x (lo + n)) (hw : m + n + lo ≤ 64) : acc + place y lo = place (x ++ y) lo := by
  apply BitVec.eq_of_toNat_eq
  have hlt := (place (x ++ y) lo).isLt
  rw [place_toNat _ _ hw, toNat_append_add] at hlt
  have sum : x.toNat * 2 ^ (lo + n) + y.toNat * 2 ^ lo = (x.toNat * 2 ^ n + y.toNat) * 2 ^ lo := by ring
  rw [h, BitVec.toNat_add, place_toNat x _ (by omega), place_toNat y _ (by omega), place_toNat _ _ hw,
    toNat_append_add, sum, Nat.mod_eq_of_lt hlt]

/-- An assembled value is the concatenation of its fields. -/
theorem assemble_eq_append (f : Fields) : assemble f =
    f.ecv ++ f.fgt ++ f.res0_55_48 ++ f.exS ++ f.tGran4_2 ++ f.tGran64_2 ++ f.tGran16_2 ++ f.tGran4 ++ f.tGran64
      ++ f.tGran16 ++ f.bigEndEL0 ++ f.snsMem ++ f.bigEnd ++ f.asidBits ++ f.paRange := by
  have whole (v : Word) : place v 0 = v := by simp [place]
  rw [← whole (_ ++ f.paRange)]
  iterate 14 refine add_place_eq_place_append ?_ (by decide)
  rfl

theorem append_inj_iff {m n : Nat} {x x' : BitVec m} {y y' : BitVec n} : x ++ y = x' ++ y' ↔ x = x' ∧ y = y' := by
  refine ⟨fun h => ?_, fun ⟨hx, hy⟩ => by rw [hx, hy]⟩
  have hn := congrArg BitVec.toNat h
  rw [toNat_append_add, toNat_append_add, Nat.mul_comm, Nat.mul_comm x'.toNat] at hn
  have hlow : y.toNat = y'.toNat := by
    have hmod := congrArg (· % 2 ^ n) hn
    simp only [Nat.mul_add_mod_self_left, BitVec.toNat_mod_cancel] at hmod
    exact hmod
  rw [hlow, Nat.add_right_cancel_iff, Nat.mul_right_inj (by positivity)] at hn
  exact ⟨BitVec.eq_of_toNat_eq hn, BitVec.eq_of_toNat_eq hlow⟩

theorem cut_assemble (f : Fields) : cut (assemble f) = f := by
  have h := (fields_concatenated (assemble f)).symm.trans (assemble_eq_append f)
  change (_ : BitVec (4 + 4 + 8 + 4 + 4 + 4 + 4 + 4 + 4 + 4 + 4 + 4 + 4 + 4 + 4)) = _ at h
  simp only [append_inj_iff, and_assoc] at h
  cases f
  simpa only [cut, Fields.mk.injEq] using h

theorem assemble_cut (v : Word) : assemble (cut v) = v :=
  (assemble_eq_append (cut v)).trans (fields_concatenated v).symm

/-! ### The other lines of `WF(cfg)` (R38), in slices -/

section Lines

variable {x : Nibble} {b : Bool} {c : Cfg}

/-- The condition of both `_2` fields with a 52-bit value. -/
theorem nibble_le_two_or_three_iff :
    (x == 0b0000#4 || x == 0b0001#4 || x == 0b0010#4 || (x == 0b0011#4 && b)) = true ↔
      x.toNat ≤ 2 ∨ (x.toNat = 3 ∧ b = true) := by
  rw [Bool.or_eq_true, nibble_le_two_iff, Bool.and_eq_true, beq_iff_eq, nibble_eq_iff (by decide)]

theorem wfLineHolds_res0 : wfLineHolds c .res0 = true ↔ slice c.V 55 48 = 0 := by
  rw [← toNat_res0_55_48, wfLineHolds, beq_iff_eq, ← BitVec.toNat_inj]
  rfl

theorem wfLineHolds_tGran4_2 : wfLineHolds c .tGran4_2 = true ↔
    slice c.V 43 40 ≤ 2 ∨ (slice c.V 43 40 = 3 ∧ c.featLPA2 = true) :=
  toNat_tGran4_2 c.V ▸ nibble_le_two_or_three_iff

theorem wfLineHolds_tGran16_2 : wfLineHolds c .tGran16_2 = true ↔
    slice c.V 35 32 ≤ 2 ∨ (slice c.V 35 32 = 3 ∧ c.featLPA2 = true) :=
  toNat_tGran16_2 c.V ▸ nibble_le_two_or_three_iff

theorem wfLineHolds_tGran4 : wfLineHolds c .tGran4 = true ↔
    slice c.V 31 28 = 0 ∨ slice c.V 31 28 = 15 ∨ (slice c.V 31 28 = 1 ∧ c.featLPA2 = true) := by
  simp [wfLineHolds, nibble_eq_iff, or_assoc]

theorem wfLineHolds_tGran16 : wfLineHolds c .tGran16 = true ↔
    slice c.V 23 20 ≤ 1 ∨ (slice c.V 23 20 = 2 ∧ c.featLPA2 = true) := by
  rw [wfLineHolds, Bool.or_eq_true, nibble_le_one_iff, Bool.and_eq_true, beq_iff_eq, nibble_eq_iff (by decide),
    toNat_tGran16]

theorem wfLineHolds_snsMem : wfLineHolds c .snsMem = true ↔ slice c.V 15 12 ≤ 1 :=
  toNat_snsMem c.V ▸ nibble_le_one_iff

theorem wfLineHolds_snsMemEL3 : wfLineHolds c .snsMemEL3 = true ↔ (c.haveEL3 = true → slice c.V 15 12 ≠ 0) := by
  cases h : c.haveEL3 <;> simp [wfLineHolds, h, nibble_eq_iff]

/-- Rule R38's nineteen conditions in slices; with WF_ECV, the condition of WF_ECV_86 is that the value is not zero. -/
theorem wf_iff_slices : c.wf = true ↔
    slice c.V 63 60 ≤ 2 ∧ (c.archAtLeast8_6 = true → slice c.V 63 60 ≠ 0) ∧
    slice c.V 59 56 ≤ 1 ∧ (c.archAtLeast8_6 = true → slice c.V 59 56 = 1) ∧
    slice c.V 55 48 = 0 ∧ slice c.V 47 44 ≤ 1 ∧
    (slice c.V 43 40 ≤ 2 ∨ (slice c.V 43 40 = 3 ∧ c.featLPA2 = true)) ∧
    slice c.V 39 36 ≤ 2 ∧
    (slice c.V 35 32 ≤ 2 ∨ (slice c.V 35 32 = 3 ∧ c.featLPA2 = true)) ∧
    (slice c.V 31 28 = 0 ∨ slice c.V 31 28 = 15 ∨ (slice c.V 31 28 = 1 ∧ c.featLPA2 = true)) ∧
    (slice c.V 27 24 = 0 ∨ slice c.V 27 24 = 15) ∧
    (slice c.V 23 20 ≤ 1 ∨ (slice c.V 23 20 = 2 ∧ c.featLPA2 = true)) ∧
    slice c.V 19 16 ≤ 1 ∧ (slice c.V 11 8 ≠ 0 → slice c.V 19 16 = 0) ∧
    slice c.V 15 12 ≤ 1 ∧ (c.haveEL3 = true → slice c.V 15 12 ≠ 0) ∧
    slice c.V 11 8 ≤ 1 ∧ (slice c.V 7 4 = 0 ∨ slice c.V 7 4 = 2) ∧
    (slice c.V 3 0 ≤ 5 ∨ (slice c.V 3 0 = 6 ∧ c.featLPA = true)) := by
  simp only [wf_iff_lines, wfLineHolds_ecv, wfLineHolds_ecv86, wfLineHolds_fgt, wfLineHolds_fgt86, wfLineHolds_res0,
    wfLineHolds_exS, wfLineHolds_tGran4_2, wfLineHolds_tGran64_2, wfLineHolds_tGran16_2, wfLineHolds_tGran4,
    wfLineHolds_tGran64, wfLineHolds_tGran16, wfLineHolds_bigEndEL0, wfLineHolds_bigEndEL0Inv, wfLineHolds_snsMem,
    wfLineHolds_snsMemEL3, wfLineHolds_bigEnd, wfLineHolds_asidBits, wfLineHolds_paRange]
  exact and_congr_right fun hecv => and_congr_left fun _ => imp_congr_right fun _ => by omega

end Lines

/-! ### The other decode functions, row by row of their tables, in slices -/

/-- The rows of TGran4 (R126). -/
theorem decodeTGran4_cases (v : Word) (lpa2 : Bool) :
    (slice v 31 28 = 0 ∧ decodeTGran4 (tGran4 v) lpa2 = .supported) ∨
    (slice v 31 28 = 15 ∧ decodeTGran4 (tGran4 v) lpa2 = .notSupported) ∨
    (slice v 31 28 = 1 ∧ lpa2 = true ∧ decodeTGran4 (tGran4 v) lpa2 = .supported52) ∨
    (slice v 31 28 ≠ 0 ∧ slice v 31 28 ≠ 15 ∧ ¬(slice v 31 28 = 1 ∧ lpa2 = true) ∧
      decodeTGran4 (tGran4 v) lpa2 = .reserved) := by
  simp only [decodeTGran4, nibble_eq_iff, Nat.reduceLT, toNat_tGran4]
  split_ifs <;> simp_all

/-- The rows of TGran16 (R126). -/
theorem decodeTGran16_cases (v : Word) (lpa2 : Bool) :
    (slice v 23 20 = 0 ∧ decodeTGran16 (tGran16 v) lpa2 = .notSupported) ∨
    (slice v 23 20 = 1 ∧ decodeTGran16 (tGran16 v) lpa2 = .supported) ∨
    (slice v 23 20 = 2 ∧ lpa2 = true ∧ decodeTGran16 (tGran16 v) lpa2 = .supported52) ∨
    (1 < slice v 23 20 ∧ ¬(slice v 23 20 = 2 ∧ lpa2 = true) ∧ decodeTGran16 (tGran16 v) lpa2 = .reserved) := by
  simp only [decodeTGran16, nibble_eq_iff, Nat.reduceLT, toNat_tGran16]
  split_ifs <;> simp_all
  omega

/-- The rows that TGran4_2 and TGran16_2 share (R127). -/
theorem decodeTGran4_2_cases (g : Nibble) (lpa2 : Bool) :
    (g.toNat = 0 ∧ decodeTGran4_2 g lpa2 = .seeStage1Field) ∨
    (g.toNat = 1 ∧ decodeTGran4_2 g lpa2 = .notSupported) ∨
    (g.toNat = 2 ∧ decodeTGran4_2 g lpa2 = .supported) ∨
    (g.toNat = 3 ∧ lpa2 = true ∧ decodeTGran4_2 g lpa2 = .supported52) ∨
    (2 < g.toNat ∧ ¬(g.toNat = 3 ∧ lpa2 = true) ∧ decodeTGran4_2 g lpa2 = .reserved) := by
  simp only [decodeTGran4_2, nibble_eq_iff, Nat.reduceLT]
  split_ifs <;> simp_all
  omega

/-- The rows of `decodeTGran4_2` exclude each other, so zero may be asked after 1 and 2. -/
theorem decodeTGran4_2_reordered (g : Nibble) (lpa2 : Bool) : decodeTGran4_2 g lpa2 =
    if g.toNat = 1 then .notSupported
    else if g.toNat = 2 then .supported
    else if g.toNat = 0 then .seeStage1Field
    else if g.toNat = 3 ∧ lpa2 = true then .supported52 else .reserved := by
  obtain ⟨hs, hd⟩ | ⟨hs, hd⟩ | ⟨hs, hd⟩ | ⟨hs, hf, hd⟩ | ⟨hs, hf, hd⟩ := decodeTGran4_2_cases g lpa2
  · simp [hs, hd]
  · simp [hs, hd]
  · simp [hs, hd]
  · rw [hd]; simp [hs, hf]
  · rw [hd, if_neg (by omega), if_neg (by omega), if_neg (by omega), if_neg hf]

/-- The rows of SNSMem (R130). -/
theorem decodeSNSMem_cases (v : Word) :
    (slice v 15 12 = 0 ∧ decodeSNSMem (snsMem v) = .noSecureNonSecureDistinction) ∨
    (slice v 15 12 = 1 ∧ decodeSNSMem (snsMem v) = .secureNonSecureDistinction) ∨
    (1 < slice v 15 12 ∧ decodeSNSMem (snsMem v) = .reserved) := by
  simp only [decodeSNSMem, nibble_eq_iff, Nat.reduceLT, toNat_snsMem]
  split_ifs <;> simp <;> omega

/-- A meaning of PARange is reserved or one of seven numbers of bits (R132). -/
theorem paBits_cases (p : Nibble) (lpa : Bool) :
    paBits p lpa = .reserved ∨ ∃ n ∈ [32, 36, 40, 42, 44, 48, 52], paBits p lpa = .bitsOf n := by
  unfold paBits
  split_ifs <;> simp

/-- Stage-2 support by the value of a `_2` field with a 52-bit value (R128): zero hands over to stage 1. -/
theorem followStage1_decodeTGran4_2 (g : Nibble) (lpa2 : Bool) (stage1 : Gran) :
    followStage1 (decodeTGran4_2 g lpa2) stage1 =
      if g.toNat = 0 then stage1
      else if g.toNat = 1 then .notSupported
      else if g.toNat = 2 then .supported
      else if g.toNat = 3 ∧ lpa2 = true then .supported52 else .reserved := by
  simp only [decodeTGran4_2, nibble_eq_iff, Nat.reduceLT]
  split_ifs <;> rfl

/-- Stage-2 support by the value of TGran64_2 (R128). -/
theorem followStage1_decodeTGran64_2 (g : Nibble) (stage1 : Gran) :
    followStage1 (decodeTGran64_2 g) stage1 =
      if g.toNat = 0 then stage1
      else if g.toNat = 1 then .notSupported else if g.toNat = 2 then .supported else .reserved := by
  simp only [decodeTGran64_2, nibble_eq_iff, Nat.reduceLT]
  split_ifs <;> rfl

theorem followStage1_ne_reserved {m : Gran2} {stage1 : Gran} (hm : m ≠ .reserved) (h1 : stage1 ≠ .reserved) :
    followStage1 m stage1 ≠ .reserved := by
  cases m <;> simp_all [followStage1]

section Stage2

variable (c : Cfg)

theorem granuleReport_stage2_kb4 : granuleReport c .stage2 .kb4 =
    if slice c.V 43 40 = 0 then granuleReport c .stage1 .kb4
    else if slice c.V 43 40 = 1 then .notSupported
    else if slice c.V 43 40 = 2 then .supported
    else if slice c.V 43 40 = 3 ∧ c.featLPA2 = true then .supported52 else .reserved :=
  toNat_tGran4_2 c.V ▸ followStage1_decodeTGran4_2 _ _ _

theorem granuleReport_stage2_kb16 : granuleReport c .stage2 .kb16 =
    if slice c.V 35 32 = 0 then granuleReport c .stage1 .kb16
    else if slice c.V 35 32 = 1 then .notSupported
    else if slice c.V 35 32 = 2 then .supported
    else if slice c.V 35 32 = 3 ∧ c.featLPA2 = true then .supported52 else .reserved :=
  toNat_tGran16_2 c.V ▸ followStage1_decodeTGran4_2 _ _ _

theorem granuleReport_stage2_kb64 : granuleReport c .stage2 .kb64 =
    if slice c.V 39 36 = 0 then granuleReport c .stage1 .kb64
    else if slice c.V 39 36 = 1 then .notSupported
    else if slice c.V 39 36 = 2 then .supported else .reserved :=
  toNat_tGran64_2 c.V ▸ followStage1_decodeTGran64_2 _ _

end Stage2

/-! ### A decode function answers `Reserved` exactly where its line of `WF(cfg)` fails (R133) -/

section Reserved

variable {c : Cfg}

theorem decodeECV_ne_reserved : decodeECV (ecv c.V) ≠ .reserved ↔ wfLineHolds c .ecv = true := by
  unfold decodeECV wfLineHolds
  split_ifs <;> simp_all

theorem decodeFGT_ne_reserved : decodeFGT (fgt c.V) ≠ .reserved ↔ wfLineHolds c .fgt = true := by
  unfold decodeFGT wfLineHolds
  split_ifs <;> simp_all

theorem decodeExS_ne_reserved : decodeExS (exS c.V) ≠ .reserved ↔ wfLineHolds c .exS = true := by
  unfold decodeExS wfLineHolds
  split_ifs <;> simp_all

theorem decodeTGran4_ne_reserved :
    decodeTGran4 (tGran4 c.V) c.featLPA2 ≠ .reserved ↔ wfLineHolds c .tGran4 = true := by
  unfold decodeTGran4 wfLineHolds
  split_ifs <;> simp_all

theorem decodeTGran64_ne_reserved : decodeTGran64 (tGran64 c.V) ≠ .reserved ↔ wfLineHolds c .tGran64 = true := by
  unfold decodeTGran64 wfLineHolds
  split_ifs <;> simp_all

theorem decodeTGran16_ne_reserved :
    decodeTGran16 (tGran16 c.V) c.featLPA2 ≠ .reserved ↔ wfLineHolds c .tGran16 = true := by
  unfold decodeTGran16 wfLineHolds
  split_ifs <;> simp_all

theorem decodeTGran4_2_ne_reserved :
    decodeTGran4_2 (tGran4_2 c.V) c.featLPA2 ≠ .reserved ↔ wfLineHolds c .tGran4_2 = true := by
  unfold decodeTGran4_2 wfLineHolds
  split_ifs <;> simp_all

theorem decodeTGran64_2_ne_reserved :
    decodeTGran64_2 (tGran64_2 c.V) ≠ .reserved ↔ wfLineHolds c .tGran64_2 = true := by
  unfold decodeTGran64_2 wfLineHolds
  split_ifs <;> simp_all

theorem decodeTGran16_2_ne_reserved :
    decodeTGran16_2 (tGran16_2 c.V) c.featLPA2 ≠ .reserved ↔ wfLineHolds c .tGran16_2 = true := by
  unfold decodeTGran16_2 decodeTGran4_2 wfLineHolds
  split_ifs <;> simp_all

theorem eeConfigurable_ne_reserved : eeConfigurable c.V ≠ .reserved ↔ wfLineHolds c .bigEnd = true := by
  unfold eeConfigurable wfLineHolds
  split_ifs <;> simp_all

theorem e0eConfigurable_ne_reserved : e0eConfigurable c.V ≠ .reserved ↔
    wfLineHolds c .bigEnd = true ∧ (slice c.V 11 8 = 0 → wfLineHolds c .bigEndEL0 = true) := by
  rw [wfLineHolds_bigEnd, wfLineHolds_bigEndEL0]
  obtain ⟨hb, -, h0⟩ | ⟨hb, hl, -, h0⟩ | ⟨hb, hl, -, h0⟩ | ⟨hb, hl, -, h0⟩ | ⟨hb, -, h0⟩ := byteOrder_cases c.V <;>
    simp [h0] <;> omega

theorem decodeSNSMem_ne_reserved : decodeSNSMem (snsMem c.V) ≠ .reserved ↔ wfLineHolds c .snsMem = true := by
  unfold decodeSNSMem wfLineHolds
  split_ifs <;> simp_all

theorem asidSize_ne_reserved : asidSize (asidBits c.V) ≠ .reserved ↔ wfLineHolds c .asidBits = true := by
  unfold asidSize wfLineHolds
  split_ifs <;> simp_all

theorem paBits_ne_reserved : paBits (paRange c.V) c.featLPA ≠ .reserved ↔ wfLineHolds c .paRange = true := by
  unfold paBits wfLineHolds
  split_ifs <;> simp_all

theorem stage2Gran4_ne_reserved (h2 : wfLineHolds c .tGran4_2 = true) (h1 : wfLineHolds c .tGran4 = true) :
    stage2Gran4 c.V c.featLPA2 ≠ .reserved :=
  followStage1_ne_reserved (decodeTGran4_2_ne_reserved.mpr h2) (decodeTGran4_ne_reserved.mpr h1)

theorem stage2Gran64_ne_reserved (h2 : wfLineHolds c .tGran64_2 = true) (h1 : wfLineHolds c .tGran64 = true) :
    stage2Gran64 c.V ≠ .reserved :=
  followStage1_ne_reserved (decodeTGran64_2_ne_reserved.mpr h2) (decodeTGran64_ne_reserved.mpr h1)

theorem stage2Gran16_ne_reserved (h2 : wfLineHolds c .tGran16_2 = true) (h1 : wfLineHolds c .tGran16 = true) :
    stage2Gran16 c.V c.featLPA2 ≠ .reserved :=
  followStage1_ne_reserved (decodeTGran16_2_ne_reserved.mpr h2) (decodeTGran16_ne_reserved.mpr h1)

/-- No answer is `Reserved` exactly when the thirteen lines hold that a decode function sees, and WF_BigEndEL0 where
BigEnd is zero; stage-2 support adds nothing to its two fields. -/
theorem someAnswerReserved_eq_false_iff : someAnswerReserved c = false ↔
    wfLineHolds c .ecv = true ∧ wfLineHolds c .fgt = true ∧ wfLineHolds c .exS = true ∧
    wfLineHolds c .tGran4 = true ∧ wfLineHolds c .tGran64 = true ∧ wfLineHolds c .tGran16 = true ∧
    wfLineHolds c .tGran4_2 = true ∧ wfLineHolds c .tGran64_2 = true ∧ wfLineHolds c .tGran16_2 = true ∧
    wfLineHolds c .bigEnd = true ∧ (slice c.V 11 8 = 0 → wfLineHolds c .bigEndEL0 = true) ∧
    wfLineHolds c .snsMem = true ∧ wfLineHolds c .asidBits = true ∧ wfLineHolds c .paRange = true := by
  simp only [someAnswerReserved, Bool.or_eq_false_iff, beq_eq_false_iff_ne, and_assoc,
    decodeECV_ne_reserved, decodeFGT_ne_reserved, decodeExS_ne_reserved, decodeTGran4_ne_reserved,
    decodeTGran64_ne_reserved, decodeTGran16_ne_reserved, decodeTGran4_2_ne_reserved, decodeTGran64_2_ne_reserved,
    decodeTGran16_2_ne_reserved, eeConfigurable_ne_reserved, e0eConfigurable_ne_reserved, decodeSNSMem_ne_reserved,
    asidSize_ne_reserved, paBits_ne_reserved]
  constructor
  · rintro ⟨ecv, fgt, exS, g4, g64, g16, g4_2, g64_2, g16_2, -, -, -, bigEnd, -, bigEndEL0, snsMem, asid, pa⟩
    exact ⟨ecv, fgt, exS, g4, g64, g16, g4_2, g64_2, g16_2, bigEnd, bigEndEL0, snsMem, asid, pa⟩
  · rintro ⟨ecv, fgt, exS, g4, g64, g16, g4_2, g64_2, g16_2, bigEnd, bigEndEL0, snsMem, asid, pa⟩
    exact ⟨ecv, fgt, exS, g4, g64, g16, g4_2, g64_2, g16_2, stage2Gran4_ne_reserved g4_2 g4,
      stage2Gran64_ne_reserved g64_2 g64, stage2Gran16_ne_reserved g16_2 g16, bigEnd, bigEnd, bigEndEL0, snsMem, asid,
      pa⟩

theorem someAnswerReserved_of_wf (hc : c.wf = true) : someAnswerReserved c = false := by
  have line := wf_iff.mp hc
  exact someAnswerReserved_eq_false_iff.mpr ⟨line _, line _, line _, line _, line _, line _, line _, line _, line _,
    line _, fun _ => line _, line _, line _, line _⟩

theorem granuleReport_ne_reserved_of_wf (hc : c.wf = true) (st : Stage) (g : Granule) :
    granuleReport c st g ≠ .reserved := by
  have line := wf_iff.mp hc
  match st, g with
  | .stage1, .kb4 => exact decodeTGran4_ne_reserved.mpr (line _)
  | .stage1, .kb16 => exact decodeTGran16_ne_reserved.mpr (line _)
  | .stage1, .kb64 => exact decodeTGran64_ne_reserved.mpr (line _)
  | .stage2, .kb4 => exact stage2Gran4_ne_reserved (line _) (line _)
  | .stage2, .kb16 => exact stage2Gran16_ne_reserved (line _) (line _)
  | .stage2, .kb64 => exact stage2Gran64_ne_reserved (line _) (line _)

/-- On a legal configuration a granule is available unless its report says that it is not supported. -/
theorem granuleAvailable_iff_of_wf (hc : c.wf = true) (st : Stage) (g : Granule) :
    granuleAvailable c st g = true ↔ granuleReport c st g ≠ .notSupported := by
  have hr := granuleReport_ne_reserved_of_wf hc st g
  rw [granuleAvailable]
  cases h : granuleReport c st g <;> simp_all

end Reserved

/-! ### Where a granule is reported as not supported -/

section NotSupported

variable {c : Cfg}

theorem stage1_kb4_notSupported : granuleReport c .stage1 .kb4 = .notSupported ↔ slice c.V 31 28 = 15 := by
  rw [granuleReport]
  obtain ⟨hs, hd⟩ | ⟨hs, hd⟩ | ⟨hs, -, hd⟩ | ⟨-, hs, -, hd⟩ := decodeTGran4_cases c.V c.featLPA2 <;> simp [hd, hs]

theorem stage1_kb16_notSupported : granuleReport c .stage1 .kb16 = .notSupported ↔ slice c.V 23 20 = 0 := by
  rw [granuleReport]
  obtain ⟨hs, hd⟩ | ⟨hs, hd⟩ | ⟨hs, -, hd⟩ | ⟨hs, -, hd⟩ := decodeTGran16_cases c.V c.featLPA2 <;> simp [hd] <;> omega

theorem stage1_kb64_notSupported : granuleReport c .stage1 .kb64 = .notSupported ↔ slice c.V 27 24 = 15 := by
  rw [granuleReport]
  obtain ⟨hs, hd⟩ | ⟨hs, hd⟩ | ⟨-, hs, hd⟩ := decodeTGran64_cases c.V <;> simp [hd, hs]

theorem stage2_kb4_notSupported : granuleReport c .stage2 .kb4 = .notSupported ↔
    slice c.V 43 40 = 1 ∨ (slice c.V 43 40 = 0 ∧ slice c.V 31 28 = 15) := by
  rw [granuleReport_stage2_kb4, ← stage1_kb4_notSupported]
  split_ifs <;> simp [*]

theorem stage2_kb16_notSupported : granuleReport c .stage2 .kb16 = .notSupported ↔
    slice c.V 35 32 = 1 ∨ (slice c.V 35 32 = 0 ∧ slice c.V 23 20 = 0) := by
  rw [granuleReport_stage2_kb16, ← stage1_kb16_notSupported]
  split_ifs <;> simp [*]

theorem stage2_kb64_notSupported : granuleReport c .stage2 .kb64 = .notSupported ↔
    slice c.V 39 36 = 1 ∨ (slice c.V 39 36 = 0 ∧ slice c.V 27 24 = 15) := by
  rw [granuleReport_stage2_kb64, ← stage1_kb64_notSupported]
  split_ifs <;> simp [*]

end NotSupported

/-- The choice of the Boolean members that admits most: without Armv8.6 and EL3 the cross-conditions are empty, and with
FEAT_LPA and FEAT_LPA2 the 52-bit values are admitted. -/
theorem wf_of_mostPermissive {c : Cfg} (haveEL2 idst : Bool) (h : c.wf = true) :
    Cfg.wf ⟨c.V, haveEL2, false, idst, true, true, false⟩ = true := by
  obtain ⟨ecv, -, fgt, -, res0, exS, g4_2, g64_2, g16_2, g4, g64, g16, be0, inv, sns, -, be, asid, pa⟩ :=
    wf_iff_slices.mp h
  have with52 {p q r : Prop} (hpqr : p ∨ (q ∧ r)) : p ∨ (q ∧ true = true) := hpqr.imp_right fun hqr => ⟨hqr.1, rfl⟩
  exact wf_iff_slices.mpr ⟨ecv, nofun, fgt, nofun, res0, exS, with52 g4_2, g64_2, with52 g16_2, g4.imp_right with52,
    g64, with52 g16, be0, inv, sns, nofun, be, asid, with52 pa⟩

end Sys2Proof.Machine

/-! ### Counting the legal values: one finite set of values per field (R38, T4) -/

namespace Sys2Proof.Machine

open Mmfr0

/-- The field values of a register value, those of the two byte-order fields as a pair. -/
abbrev FieldTuple : Type :=
  Nibble × Nibble × BitVec 8 × Nibble × Nibble × Nibble × Nibble × Nibble × Nibble × Nibble × (Nibble × Nibble)
    × Nibble × Nibble × Nibble

/-- The fields of a value as a tuple. -/
def toTuple (v : Word) : FieldTuple :=
  (ecv v, fgt v, res0_55_48 v, exS v, tGran4_2 v, tGran64_2 v, tGran16_2 v, tGran4 v, tGran64 v, tGran16 v,
    (bigEndEL0 v, bigEnd v), snsMem v, asidBits v, paRange v)

/-- The value with the fields of a tuple. -/
def ofTuple : FieldTuple → Word
  | (ecv, fgt, res0, exS, g4_2, g64_2, g16_2, g4, g64, g16, (bigEndEL0, bigEnd), snsMem, asid, pa) =>
    assemble ⟨ecv, fgt, res0, exS, g4_2, g64_2, g16_2, g4, g64, g16, bigEndEL0, snsMem, bigEnd, asid, pa⟩

theorem toTuple_ofTuple (f : FieldTuple) : toTuple (ofTuple f) = f := by
  obtain ⟨ecv, fgt, res0, exS, g4_2, g64_2, g16_2, g4, g64, g16, ⟨bigEndEL0, bigEnd⟩, snsMem, asid, pa⟩ := f
  have h := cut_assemble ⟨ecv, fgt, res0, exS, g4_2, g64_2, g16_2, g4, g64, g16, bigEndEL0, snsMem, bigEnd, asid, pa⟩
  simp only [cut, Fields.mk.injEq] at h
  simp only [toTuple, ofTuple, h]

/-- A value is determined by its fields, and any field values make a value. -/
def wordEquivTuple : Word ≃ FieldTuple where
  toFun := toTuple
  invFun := ofTuple
  left_inv := assemble_cut
  right_inv := toTuple_ofTuple

/-! The legal values of each field (R38), with the Boolean member of `cfg` that its conditions ask. -/

def ecvValues (armv86 : Bool) : Finset Nibble := if armv86 then {1, 2} else {0, 1, 2}
def fgtValues (armv86 : Bool) : Finset Nibble := if armv86 then {1} else {0, 1}
def exSValues : Finset Nibble := {0, 1}
/-- Of TGran4_2 and of TGran16_2. -/
def granule2Values (lpa2 : Bool) : Finset Nibble := if lpa2 then {0, 1, 2, 3} else {0, 1, 2}
def tGran64_2Values : Finset Nibble := {0, 1, 2}
def tGran4Values (lpa2 : Bool) : Finset Nibble := if lpa2 then {0, 1, 15} else {0, 15}
def tGran64Values : Finset Nibble := {0, 15}
def tGran16Values (lpa2 : Bool) : Finset Nibble := if lpa2 then {0, 1, 2} else {0, 1}
/-- Of BigEndEL0 with BigEnd. -/
def byteOrderValues : Finset (Nibble × Nibble) := {(0, 0), (1, 0), (0, 1)}
def snsMemValues (haveEL3 : Bool) : Finset Nibble := if haveEL3 then {1} else {0, 1}
def asidBitsValues : Finset Nibble := {0, 2}
def paRangeValues (lpa : Bool) : Finset Nibble := if lpa then {0, 1, 2, 3, 4, 5, 6} else {0, 1, 2, 3, 4, 5}

/-- The tuples of field values that are legal under the Boolean members of `c`; its value is not asked. -/
def legalTuples (c : Cfg) : Finset FieldTuple :=
  ecvValues c.archAtLeast8_6 ×ˢ fgtValues c.archAtLeast8_6 ×ˢ {0#8} ×ˢ exSValues
    ×ˢ granule2Values c.featLPA2 ×ˢ tGran64_2Values ×ˢ granule2Values c.featLPA2
    ×ˢ tGran4Values c.featLPA2 ×ˢ tGran64Values ×ˢ tGran16Values c.featLPA2
    ×ˢ byteOrderValues ×ˢ snsMemValues c.haveEL3 ×ˢ asidBitsValues ×ˢ paRangeValues c.featLPA

section FieldValues

variable {x y : Nibble} {b : Bool}

theorem mem_ecvValues : x ∈ ecvValues b ↔
    (x == 0b0000#4 || x == 0b0001#4 || x == 0b0010#4) = true ∧ (!b || x == 0b0001#4 || x == 0b0010#4) = true := by
  decide +revert

theorem mem_fgtValues : x ∈ fgtValues b ↔
    (x == 0b0000#4 || x == 0b0001#4) = true ∧ (!b || x == 0b0001#4) = true := by
  decide +revert

theorem mem_exSValues : x ∈ exSValues ↔ (x == 0b0000#4 || x == 0b0001#4) = true := by
  decide +revert

theorem mem_granule2Values : x ∈ granule2Values b ↔
    (x == 0b0000#4 || x == 0b0001#4 || x == 0b0010#4 || (x == 0b0011#4 && b)) = true := by
  decide +revert

theorem mem_tGran64_2Values :
    x ∈ tGran64_2Values ↔ (x == 0b0000#4 || x == 0b0001#4 || x == 0b0010#4) = true := by
  decide +revert

theorem mem_tGran4Values : x ∈ tGran4Values b ↔
    (x == 0b0000#4 || x == 0b1111#4 || (x == 0b0001#4 && b)) = true := by
  decide +revert

theorem mem_tGran64Values : x ∈ tGran64Values ↔ (x == 0b0000#4 || x == 0b1111#4) = true := by
  decide +revert

theorem mem_tGran16Values : x ∈ tGran16Values b ↔
    (x == 0b0000#4 || x == 0b0001#4 || (x == 0b0010#4 && b)) = true := by
  decide +revert

theorem mem_byteOrderValues : (x, y) ∈ byteOrderValues ↔
    (x == 0b0000#4 || x == 0b0001#4) = true ∧ (y == 0b0000#4 || x == 0b0000#4) = true ∧
      (y == 0b0000#4 || y == 0b0001#4) = true := by
  decide +revert

theorem mem_snsMemValues : x ∈ snsMemValues b ↔
    (x == 0b0000#4 || x == 0b0001#4) = true ∧ (!b || x != 0b0000#4) = true := by
  decide +revert

theorem mem_asidBitsValues : x ∈ asidBitsValues ↔ (x == 0b0000#4 || x == 0b0010#4) = true := by
  decide +revert

theorem mem_paRangeValues : x ∈ paRangeValues b ↔
    (x == 0b0000#4 || x == 0b0001#4 || x == 0b0010#4 || x == 0b0011#4 || x == 0b0100#4 || x == 0b0101#4
      || (x == 0b0110#4 && b)) = true := by
  decide +revert

end FieldValues

/-- A configuration is legal exactly when its value's fields are. -/
theorem mem_legalTuples {c : Cfg} : wordEquivTuple c.V ∈ legalTuples c ↔ c.wf = true := by
  change toTuple c.V ∈ legalTuples c ↔ _
  simp only [wf_iff_lines, legalTuples, toTuple, Finset.mem_product, wfLineHolds, mem_ecvValues, mem_fgtValues,
    Finset.mem_singleton, beq_iff_eq (a := res0_55_48 c.V), mem_exSValues, mem_granule2Values, mem_tGran64_2Values,
    mem_tGran4Values, mem_tGran64Values, mem_tGran16Values, mem_byteOrderValues, mem_snsMemValues,
    mem_asidBitsValues, mem_paRangeValues, and_assoc]
  constructor
  · rintro ⟨ecv, ecv86, fgt, fgt86, res0, exS, g4_2, g64_2, g16_2, g4, g64, g16, be0, inv, be, sns, snsEL3, rest⟩
    exact ⟨ecv, ecv86, fgt, fgt86, res0, exS, g4_2, g64_2, g16_2, g4, g64, g16, be0, inv, sns, snsEL3, be, rest⟩
  · rintro ⟨ecv, ecv86, fgt, fgt86, res0, exS, g4_2, g64_2, g16_2, g4, g64, g16, be0, inv, sns, snsEL3, be, rest⟩
    exact ⟨ecv, ecv86, fgt, fgt86, res0, exS, g4_2, g64_2, g16_2, g4, g64, g16, be0, inv, be, sns, snsEL3, rest⟩

/-- The number of values legal under a choice of the Boolean members. -/
theorem card_legal (c : Cfg) : Nat.card {v : Word // Cfg.wf { c with V := v } = true} = (legalTuples c).card := by
  have legal (v : Word) : Cfg.wf { c with V := v } = true ↔ wordEquivTuple v ∈ legalTuples c := mem_legalTuples.symm
  rw [Nat.card_congr (wordEquivTuple.subtypeEquiv legal)]
  exact Nat.card_eq_fintype_card.trans (Fintype.card_coe _)

end Sys2Proof.Machine

/-! ### The obligations on the fields (10_state.md Part 1, 41_field_queries.md) -/

namespace Sys2Proof.Proofs

open Machine Machine.Mmfr0

/-- Settles O34: `bits_toNat` at each heading's bounds. -/
theorem eachFieldIsItsSlice : Obligations.EachFieldIsItsSlice := by
  unfold Obligations.EachFieldIsItsSlice
  simp

/-- Settles O35: an assembled value is the concatenation of its fields, and so is a value of the fields cut from it. -/
theorem assembleAndCutAreInverse : Obligations.AssembleAndCutAreInverse := by
  unfold Obligations.AssembleAndCutAreInverse
  exact ⟨cut_assemble, assemble_cut⟩

/-- Settles O38: the destination holds `cfg.V`, and WF_RES0 says that its bits [55:48] are zero. -/
theorem reservedBitsReadAsZero : Obligations.ReservedBitsReadAsZero := by
  unfold Obligations.ReservedBitsReadAsZero
  intro s s' t n hc h hn
  obtain ⟨-, rfl⟩ := exec_mrs_next.mp h
  rw [readX_after_read, if_pos hn]
  exact wfLineHolds_res0.mp (wf_iff.mp hc .res0)

/-- Settles O41: the rows of each field's table exclude each other, so the order in which they are asked is free. -/
theorem granule4KBAnd16KBFieldTables : Obligations.Granule4KBAnd16KBFieldTables := by
  unfold Obligations.Granule4KBAnd16KBFieldTables
  intro v lpa2
  rw [decodeTGran16_2, ← toNat_tGran4_2, ← toNat_tGran16_2]
  refine ⟨?_, ?_, decodeTGran4_2_reordered _ _, decodeTGran4_2_reordered _ _⟩
  · obtain ⟨hs, hd⟩ | ⟨hs, hd⟩ | ⟨hs, hf, hd⟩ | ⟨h0, h15, hf, hd⟩ := decodeTGran4_cases v lpa2 <;> rw [hd]
    · simp [hs]
    · simp [hs]
    · simp [hs, hf]
    · rw [if_neg h0, if_neg h15, if_neg hf]
  · obtain ⟨hs, hd⟩ | ⟨hs, hd⟩ | ⟨hs, hf, hd⟩ | ⟨hs, hf, hd⟩ := decodeTGran16_cases v lpa2 <;> rw [hd]
    · simp [hs]
    · simp [hs]
    · simp [hs, hf]
    · rw [if_neg (by omega), if_neg (by omega), if_neg hf]

/-- Settles O42: stage-2 support as one chain over the `_2` field; a non-zero value never asks the other field. -/
theorem stage2FollowsStage1OnlyWhenZero : Obligations.Stage2FollowsStage1OnlyWhenZero := by
  unfold Obligations.Stage2FollowsStage1OnlyWhenZero
  intro c
  simp only [granuleReport_stage2_kb4, granuleReport_stage2_kb16, granuleReport_stage2_kb64]
  refine ⟨fun h => if_pos h, fun h => if_pos h, fun h => if_pos h, fun h => if_neg h, fun h => if_neg h,
    fun h => if_neg h, fun w h hw => ?_, fun w h hw => ?_, fun w h hw => ?_⟩ <;> simp only [hw, if_neg h]

/-- Settles O44: the rows by `decodeSNSMem_cases`, the legal values by WF_SNSMem and WF_SNSMem_EL3. -/
theorem snsMemFieldTable : Obligations.SNSMemFieldTable := by
  unfold Obligations.SNSMemFieldTable
  refine ⟨fun v => ?_, fun c hc => ?_, ⟨⟨0x1000#64, false, false, false, false, false, false⟩, by decide⟩⟩
  · obtain ⟨hs, hd⟩ | ⟨hs, hd⟩ | ⟨hs, hd⟩ := decodeSNSMem_cases v <;> simp [hd] <;> omega
  · have hle := wfLineHolds_snsMem.mp (wf_iff.mp hc .snsMem)
    refine ⟨hle, fun h3 => ?_⟩
    have hne := wfLineHolds_snsMemEL3.mp (wf_iff.mp hc .snsMemEL3) h3
    omega

/-- Settles O55: the rows of the three decode functions; each feature compares its field with the same values. -/
theorem featuresAgreeWithDecodedMeanings : Obligations.FeaturesAgreeWithDecodedMeanings := by
  unfold Obligations.FeaturesAgreeWithDecodedMeanings
  intro v
  have hecv : featECV v = true ↔ slice v 63 60 = 1 ∨ slice v 63 60 = 2 := by simp [featECV, nibble_eq_iff]
  have hfgt : featFGT v = true ↔ slice v 59 56 = 1 := by simp [featFGT, nibble_eq_iff]
  have hexS : featExS v = true ↔ slice v 47 44 = 1 := by simp [featExS, nibble_eq_iff]
  refine ⟨hecv, hecv.trans ?_, hfgt, hfgt.trans ?_, hexS, hexS.trans ?_⟩
  · obtain ⟨hs, hd⟩ | ⟨hs, hd⟩ | ⟨hs, hd⟩ | ⟨hs, hd⟩ := decodeECV_cases v <;> simp [hd] <;> omega
  · obtain ⟨hs, hd⟩ | ⟨hs, hd⟩ | ⟨hs, hd⟩ := decodeFGT_cases v <;> simp [hd] <;> omega
  · obtain ⟨hs, hd⟩ | ⟨hs, hd⟩ | ⟨hs, hd⟩ := decodeExS_cases v <;> simp [hd] <;> omega

/-! ### The obligations on legality (10_state.md Part 2) -/

/-- Settles O31: the loader hands over `failingLines`, which is empty exactly for a legal configuration. -/
theorem illegalConfigurationsRefusedByName : Obligations.IllegalConfigurationsRefusedByName := by
  unfold Obligations.IllegalConfigurationsRefusedByName
  refine fun c => ⟨fun hc => if_pos hc, fun hc => ⟨failingLines c, ?_, ?_, fun l => mem_failingLines⟩⟩
  · exact if_neg (by simp [hc])
  · intro hnil
    simp [Cfg.wf, hnil] at hc

/-- Settles O47: `wf_iff_slices`, from the nineteen lines one by one. -/
theorem legalExactlyWhenEveryLineHolds : Obligations.LegalExactlyWhenEveryLineHolds := by
  unfold Obligations.LegalExactlyWhenEveryLineHolds
  exact fun c => wf_iff_slices

/-- Settles O57: the nineteen lines one by one. -/
theorem eachNamedLineIsItsCondition : Obligations.EachNamedLineIsItsCondition := by
  unfold Obligations.EachNamedLineIsItsCondition
  exact fun c => ⟨wfLineHolds_ecv, wfLineHolds_ecv86, wfLineHolds_fgt, wfLineHolds_fgt86, wfLineHolds_res0,
    wfLineHolds_exS, wfLineHolds_tGran4_2, wfLineHolds_tGran64_2, wfLineHolds_tGran16_2, wfLineHolds_tGran4,
    wfLineHolds_tGran64, wfLineHolds_tGran16, wfLineHolds_bigEndEL0, wfLineHolds_bigEndEL0Inv, wfLineHolds_snsMem,
    wfLineHolds_snsMemEL3, wfLineHolds_bigEnd, wfLineHolds_asidBits, wfLineHolds_paRange⟩

/-- Settles O49: thirteen lines are seen by a decode function and WF_RES0 by the slice; a BigEndEL0 that none sees
stands beside a BigEnd that is not zero. -/
theorem linesTheDecodersDoNotSee : Obligations.LinesTheDecodersDoNotSee := by
  unfold Obligations.LinesTheDecodersDoNotSee
  intro c hanswers hres0
  obtain ⟨ecv, fgt, exS, g4, g64, g16, g4_2, g64_2, g16_2, bigEnd, bigEndEL0, snsMem, asid, pa⟩ :=
    someAnswerReserved_eq_false_iff.mp hanswers
  have res0 := wfLineHolds_res0.mpr hres0
  refine ⟨fun l hl => ?_, fun hl => ?_⟩
  · cases l <;> simp_all
  · simp only [← Bool.not_eq_true, wfLineHolds_bigEndEL0Inv, wfLineHolds_bigEndEL0] at *
    omega

/-- Settles O48: the lines a decode function sees by `someAnswerReserved_eq_false_iff`, the others as they stand. -/
theorem legalityAgreesWithTheDecoders : Obligations.LegalityAgreesWithTheDecoders := by
  unfold Obligations.LegalityAgreesWithTheDecoders
  intro c
  constructor
  · intro hc
    have line := wf_iff.mp hc
    exact ⟨someAnswerReserved_of_wf hc, wfLineHolds_res0.mp (line .res0), line _, line _, line _, line _, line _⟩
  · rintro ⟨hanswers, hres0, ecv86, fgt86, snsMemEL3, bigEndEL0Inv, bigEndEL0⟩
    refine wf_iff.mpr fun l => (Bool.not_eq_false _).mp fun hl => ?_
    have unseen := (linesTheDecodersDoNotSee c hanswers hres0).1 l hl
    simp only [List.mem_cons, List.not_mem_nil, or_false] at unseen
    obtain rfl | rfl | rfl | rfl | rfl := unseen <;> simp_all

/-- Settles O50: `wf_of_mostPermissive`. -/
theorem oneChoiceAdmitsAllLegalValues : Obligations.OneChoiceAdmitsAllLegalValues := by
  unfold Obligations.OneChoiceAdmitsAllLegalValues
  intro v haveEL2 idst
  constructor
  · rintro ⟨c, rfl, hc⟩
    exact wf_of_mostPermissive haveEL2 idst hc
  · exact fun h => ⟨_, rfl, h⟩

/-- Settles O51: by O50 one choice counts them all, and its legal field values are counted field by field. -/
theorem legalValueCount : Obligations.LegalValueCount := by
  unfold Obligations.LegalValueCount
  simp only [oneChoiceAdmitsAllLegalValues _ false false]
  rw [card_legal ⟨0#64, false, false, false, true, true, false⟩]
  simp only [legalTuples, Finset.card_product]
  rfl

/-- Settles O52: the legal field values of the choice, counted field by field. -/
theorem legalValueCountOfAnArmv86WithEL3 : Obligations.LegalValueCountOfAnArmv86WithEL3 := by
  unfold Obligations.LegalValueCountOfAnArmv86WithEL3
  intro haveEL2 idst
  rw [card_legal ⟨0#64, haveEL2, true, idst, false, false, true⟩]
  simp only [legalTuples, Finset.card_product]
  rfl

/-! ### The obligations on what software concludes (20_memory.md, 70_reset_and_hazards.md) -/

/-- Settles O53: on a legal configuration no answer is `Reserved`, and `paBits` and `asidSize` then name a number. -/
theorem legalValuesAnswerEveryQuery : Obligations.LegalValuesAnswerEveryQuery := by
  unfold Obligations.LegalValuesAnswerEveryQuery
  intro c hc
  have line := wf_iff.mp hc
  refine ⟨?_, ?_, granuleReport_ne_reserved_of_wf hc, decodeECV_ne_reserved.mpr (line _),
    decodeFGT_ne_reserved.mpr (line _), decodeExS_ne_reserved.mpr (line _), decodeSNSMem_ne_reserved.mpr (line _),
    decodeTGran4_2_ne_reserved.mpr (line _), decodeTGran64_2_ne_reserved.mpr (line _),
    decodeTGran16_2_ne_reserved.mpr (line _), eeConfigurable_ne_reserved.mpr (line _),
    e0eConfigurable_ne_reserved.mpr ⟨line _, fun _ => line _⟩⟩
  · obtain ⟨n, hn, hbits⟩ := (paBits_cases _ _).resolve_left (paBits_ne_reserved.mpr (line .paRange))
    exact ⟨n, hn, hbits, by rw [physicalAddressBits, hbits, spaceBytes]⟩
  · have hne := asidSize_ne_reserved.mpr (line .asidBits)
    obtain ⟨-, hd⟩ | ⟨-, hd⟩ | ⟨-, -, hd⟩ := asidSize_cases c.V
    · exact .inl hd
    · exact .inr hd
    · exact absurd hd hne

/-- Settles O54: each report's rows, with the reserved ones excluded by the configuration's lines. -/
theorem whatBootCodeMayConfigure : Obligations.WhatBootCodeMayConfigure := by
  unfold Obligations.WhatBootCodeMayConfigure
  intro c hc
  have line := wf_iff.mp hc
  have hg64_2 := wfLineHolds_tGran64_2.mp (line .tGran64_2)
  have hbe := wfLineHolds_bigEnd.mp (line .bigEnd)
  have hbe0 := wfLineHolds_bigEndEL0.mp (line .bigEndEL0)
  simp only [granuleAvailable_iff_of_wf hc, ne_eq, stage1_kb4_notSupported, stage1_kb16_notSupported,
    stage1_kb64_notSupported, stage2_kb4_notSupported, stage2_kb16_notSupported, stage2_kb64_notSupported,
    mayChangeEE, mayChangeE0E, beq_iff_eq, true_and]
  refine ⟨by omega, by omega, by omega, ?_⟩
  obtain ⟨hb, he, h0⟩ | ⟨hb, hl, he, h0⟩ | ⟨hb, hl, he, h0⟩ | ⟨-, hl, -, -⟩ | ⟨hb, -, -⟩ := byteOrder_cases c.V
  · simp [*]
  · simp [*]
  · simp [*]
  · omega
  · omega

end Sys2Proof.Proofs
